-- ==== Sys2Proof/Word.lean ====
section
/-! DEFINITION. The widths every other file writes its words with (`00_scope.md` rules R7 to R9). -/

namespace Sys2Proof

/-- An 8-bit value: a command byte, a response byte, a checksum byte, a CRC accumulator (R7). -/
abbrev Byte := BitVec 8

/-- A 32-bit host register or CTRL word (R7). -/
abbrev Word := BitVec 32

end Sys2Proof
end

