-- ==== Sys2Proof/Config.lean ====
section
/-! DEFINITION. What is fixed for one machine (the instance parameters of `00_scope.md` rule R6 and the base of rule
R60) and what the outside world can send it: the host's transactions, the answers of the environment and reset
(`00_scope.md` rule R5, `20_memory.md` rules R60, R64, R65, R72). The two parameters that carry values, `CRC_TABLE` and
`COEFF`, have their values in `Machine/Crc.lean` and `Machine/Converter.lean`, where a repair can reach them; only the
record types stand here. -/

namespace Sys2Proof

/-! ## The line channel (R64) -/

/-- The two lines (R64): `SCK` is the clock, `DATA` the data line. -/
inductive Line where
  | sck
  | data
deriving DecidableEq, Repr, Inhabited

/-- A transfer direction of `Dir(l, d)` (R64): `output` is the spec's `Out`, `input` its `In`. -/
inductive Direction where
  | output
  | input
deriving DecidableEq, Repr, Inhabited

/-- A line level (R64). -/
inductive Level where
  | low
  | high
deriving DecidableEq, Repr, Inhabited

/-- A line operation the engine issues (R64). -/
inductive LineOp where
  | dir (l : Line) (d : Direction)
  | set (l : Line) (v : Level)
  | get (l : Line)
deriving DecidableEq, Repr, Inhabited

/-- The environment's answer to a line operation (R64): `Ok` or `IoErr` for `Dir` and `Set`, `Lvl(v)` or `IoErr` for
`Get`. -/
inductive Answer where
  | ok
  | lvl (v : Level)
  | ioErr
deriving DecidableEq, Repr, Inhabited

/-- What the environment presents during one engine step (R65): the operation succeeds with the data line at level `v`
(only a `Get` looks at `v`), or it fails. Every answer of an operation's answer type comes from some `EnvReply`. -/
inductive EnvReply where
  | done (v : Level)
  | ioErr
deriving DecidableEq, Repr, Inhabited

/-- One entry of the line trace `LT` (R66): a line operation with its answer, or the event `Delay(T_CONV)` of the WAIT
step (R129). -/
inductive LineEvent where
  | op (o : LineOp) (a : Answer)
  | delay
deriving DecidableEq, Repr, Inhabited

/-! ## The host (R60, R61, R87) and the order of steps (R72) -/

/-- A bus access as the host makes it (R60): `MemRead(off, width)` or `MemWrite(off, width, data)`. Only some are
admitted (R61). -/
structure BusAccess where
  write : Bool
  off   : Nat
  width : Nat
  data  : Word
deriving DecidableEq, Repr, Inhabited

/-- What the host asks of the block: a bus access, or one of the opcode table's forms as its bytes, lowest lane first
(six bytes a `HOST_TXN`, four a CTRL word, one a `WIRE_CMD`). DESIGN CHOICE, log entry 5. -/
inductive HostRequest where
  | access (a : BusAccess)
  | coded (bytes : List Byte)
deriving DecidableEq, Repr, Inhabited

/-- One place in the single order of host transactions and engine steps (R72), with reset, which may come at any time
(R251). An engine step carries what the environment presents during it. DESIGN CHOICE, log entry 1. -/
inductive Input where
  | host (r : HostRequest)
  | engine (r : EnvReply)
  | reset
deriving DecidableEq, Repr, Inhabited

/-! ## Parameters (R6) -/

/-- The values `n` of `POLL_LIMIT = some n`: 1 ≤ n ≤ 0xFFFFFFFF (R6). -/
abbrev PollBound := { n : Word // n ≠ 0 }

/-- An exact decimal, `mant / 10 ^ scale` (R180). -/
structure Decimal where
  mant  : Int
  scale : Nat
deriving DecidableEq, Repr

/-- The record `COEFF` of seven exact decimals (R6, R180). -/
structure Coeff where
  d1 : Decimal
  d2 : Decimal
  c1 : Decimal
  c2 : Decimal
  c3 : Decimal
  t1 : Decimal
  t2 : Decimal
deriving DecidableEq, Repr

namespace Config

/-- `T_CONV`, the fixed delay of the WAIT step, in some unit of time; OPEN (R6), and no rule depends on it (R263). -/
opaque tConv : Nat

/-- `T_HALF`, the least time between two line operations, in the same unit; OPEN (R6), and no rule depends on it. -/
opaque tHalf : Nat

/-- `LINE_ID_SCK`, the platform's id of the clock line; OPEN (R6). -/
opaque lineIdSck : Nat

/-- Where `LINE_ID_DATA` comes from; OPEN (R6). -/
opaque lineIdDataDraw : Nat

/-- `LINE_ID_DATA`, the platform's id of the data line: any natural but `LINE_ID_SCK` (R6). -/
def lineIdData : Nat := if lineIdDataDraw = lineIdSck then lineIdSck + 1 else lineIdDataDraw

/-- The platform line id a line carries (R64, R254). The engine never looks at it. -/
def lineId : Line → Nat
  | .sck  => lineIdSck
  | .data => lineIdData

/-- `WINDOW_BASE`, where the platform puts the host window (R60, R71); OPEN. -/
opaque windowBase : Nat

/-- The platform address of the register at a byte offset of the window (R60). -/
def windowAddress (off : Nat) : Nat := windowBase + off

/-- The least time a timed implementation's exchange lasts, for `ops` line operations and `n` payload bytes (R264).
Timing data only: the model is untimed (R263). -/
def leastExchangeTime (ops n : Nat) : Nat := (ops - 1) * tHalf + if 1 ≤ n then tConv else 0

/-- The input that comes where the state lists none: any host request, any engine step with any answer, or reset, in any
order (R5, R65, R251). A FREE VALUE applied to the counter `State.drawn`. DESIGN CHOICE, log entry 1. -/
opaque freeInput : Nat → Input

end Config

end Sys2Proof
end

