-- ==== Sys2Proof/Syntax.lean ====
section
/-! DEFINITION. The instructions: one constructor per row of `spec/opcode_table.json`. The three formats are the CTRL
operation word (`30_encoding.md` rules R80, R81), the wire command (R86, R88) and the host transaction (R87). A bit of
a word that no operation reads is no operand (R83); an illegal word has no operand at all (`43_control.md` rule R201). -/

namespace Sys2Proof

/-- The opcode table's rows. `cmd` is ARG8 of an EXCH word, `b` ARG8 of CRC_ADD, `x` ARG16, `v` the DATA of a write. -/
inductive Instr where
  -- CTRL operation words
  | nop
  | exchN0 (cmd : Byte)
  | exchN1 (cmd : Byte)
  | exchN2 (cmd : Byte)
  | illExchN3
  | crcClr
  | crcAdd (b : Byte)
  | convT (x : BitVec 16)
  | convRhl (x : BitVec 16)
  | convRht (x : BitVec 16)
  | illOp7
  | illOp8to15
  -- wire commands
  | wireMeasureTemperature
  | wireMeasureRelativeHumidity
  | wireReadStatusRegister
  | wireSoftReset
  -- host reads
  | rdCtrl
  | rdStatus
  | rdRxdata
  | rdRaw
  | rdPolls
  | rdCrc
  | rdTemp
  | rdRhlLo
  | rdRhlHi
  | rdRhtLo
  | rdRhtHi
  | rdLastcmd
  | rdPins
  | rdRsvd34
  | rdRsvd38
  | rdRsvd3C
  -- host writes
  | wrCtrl (v : Word)
  | wrTemp (v : Word)
  | wrRoStatus (v : Word)
  | wrRoRxdata (v : Word)
  | wrRoRaw (v : Word)
  | wrRoPolls (v : Word)
  | wrRoCrc (v : Word)
  | wrRoRhlLo (v : Word)
  | wrRoRhlHi (v : Word)
  | wrRoRhtLo (v : Word)
  | wrRoRhtHi (v : Word)
  | wrRoLastcmd (v : Word)
  | wrRoPins (v : Word)
  | wrRsvd34 (v : Word)
  | wrRsvd38 (v : Word)
  | wrRsvd3C (v : Word)
deriving DecidableEq, Repr

end Sys2Proof
end

