-- ==== Sys2Proof/WellFormed.lean ====
section
/-! DEFINITION. What makes a bus access one the block admits (`20_memory.md` rule R61), and a coded request one of a form
the opcode table has (`30_encoding.md` rule R90). Every operand of an `Instr` has exactly its field's width and every
value of the field is legal (rule R82), so every term of `Instr` is well-formed. -/

namespace Sys2Proof

/-- Rule R61's three conditions: the width is 4 bytes, the offset is a multiple of 4, the offset is at most 0x3C. -/
def BusAccess.wf (a : BusAccess) : Bool :=
  a.width == 4 && a.off % 4 == 0 && decide (a.off ≤ 0x3C)

/-- A coded request has the length of one of the table's formats: WIRE_CMD one byte, CTRL four, HOST_TXN (41 bits) six
(R86, R87, R90). -/
def HostRequest.wf : HostRequest → Bool
  | .access a     => a.wf
  | .coded bytes  => bytes.length == 1 || bytes.length == 4 || bytes.length == 6

/-- Every operand of every instruction is its whole field, so nothing remains to check (R82). -/
def Instr.wf : Instr → Bool := fun _ => true

end Sys2Proof
end

