-- ==== Sys2Proof/Decode.lean ====
section
/-! DEFINITION. Decoding (`30_encoding.md` rules R80 to R92, `20_memory.md` rules R61, R70), total on any bytes and on
any bus access, and the encoder written from the same tables. -/

namespace Sys2Proof

/-! ## Byte lanes (R70): lane k carries bits 8k+7 to 8k -/

/-- The four byte lanes of a word, lane 0 first (R70). -/
def lanes (w : Word) : List Byte :=
  [w.extractLsb' 0 8, w.extractLsb' 8 8, w.extractLsb' 16 8, w.extractLsb' 24 8]

/-- The word whose lanes 0 to 3 are the four bytes (R70). -/
def ofLanes (b0 b1 b2 b3 : Byte) : Word := b3 ++ b2 ++ b1 ++ b0

/-! ## The register map (R21) -/

/-- The sixteen word offsets of the host window (R21), the three reserved ones included. -/
inductive Reg where
  | ctrl | status | rxdata | raw | polls | crc | temp | rhlLo | rhlHi | rhtLo | rhtHi | lastcmd | pins
  | rsvd34 | rsvd38 | rsvd3C
deriving DecidableEq, Repr

/-- The byte offset of a register (R21). -/
def Reg.offset : Reg → Nat
  | .ctrl    => 0x00
  | .status  => 0x04
  | .rxdata  => 0x08
  | .raw     => 0x0C
  | .polls   => 0x10
  | .crc     => 0x14
  | .temp    => 0x18
  | .rhlLo   => 0x1C
  | .rhlHi   => 0x20
  | .rhtLo   => 0x24
  | .rhtHi   => 0x28
  | .lastcmd => 0x2C
  | .pins    => 0x30
  | .rsvd34  => 0x34
  | .rsvd38  => 0x38
  | .rsvd3C  => 0x3C

/-- The register at a byte offset, where there is one (R21, R61). -/
def regAt : Nat → Option Reg
  | 0x00 => some .ctrl
  | 0x04 => some .status
  | 0x08 => some .rxdata
  | 0x0C => some .raw
  | 0x10 => some .polls
  | 0x14 => some .crc
  | 0x18 => some .temp
  | 0x1C => some .rhlLo
  | 0x20 => some .rhlHi
  | 0x24 => some .rhtLo
  | 0x28 => some .rhtHi
  | 0x2C => some .lastcmd
  | 0x30 => some .pins
  | 0x34 => some .rsvd34
  | 0x38 => some .rsvd38
  | 0x3C => some .rsvd3C
  | _    => none

/-! ## Outcomes of decoding -/

/-- Why a request is no instruction: the block has no step for it (R61), or it has no form of the opcode table. -/
inductive Reject where
  /-- A bus access that is not 4 bytes wide (R61). -/
  | accessWidth (width : Nat)
  /-- An offset that is not a multiple of 4 (R61). -/
  | misaligned (off : Nat)
  /-- An aligned offset above 0x3C (R61). -/
  | outsideWindow (off : Nat)
  /-- Bytes whose number no format of the opcode table has (R86, R87, R90). -/
  | formLength (bytes : Nat)
  /-- A HOST_TXN form with a bit set above its 41 bits (R87). -/
  | spareBits (top : Byte)
  /-- A wire byte that is none of the four commands, so that no payload count is known for it (R88, R147). -/
  | unnamedWireCommand (b : Byte)
deriving DecidableEq, Repr

/-- What decoding answers: an instruction, or why there is none. -/
inductive Decoded where
  | ok (i : Instr)
  | rejected (why : Reject)
deriving DecidableEq, Repr

/-! ## CTRL operation words (R80 to R84) -/

/-- The OP field, bits 3:0 (R80). -/
def ctrlOp (w : Word) : BitVec 4 := w.extractLsb' 0 4

/-- The ARG8 field, bits 15:8 (R80). -/
def ctrlArg8 (w : Word) : Byte := w.extractLsb' 8 8

/-- The N field, bits 17:16 (R80). -/
def ctrlN (w : Word) : BitVec 2 := w.extractLsb' 16 2

/-- The ARG16 field, bits 31:16 (R80). -/
def ctrlArg16 (w : Word) : BitVec 16 := w.extractLsb' 16 16

/-- The operations a CTRL word can select (R84). -/
inductive CtrlOp where
  | nop
  | exchN0 (cmd : Byte)
  | exchN1 (cmd : Byte)
  | exchN2 (cmd : Byte)
  | illExchN3
  | crcClr
  | crcAdd (b : Byte)
  | convT (x : BitVec 16)
  | convRhl (x : BitVec 16)
  | convRht (x : BitVec 16)
  | illOp7
  | illOp8to15
deriving DecidableEq, Repr

/-- The instruction of an operation's row. -/
def CtrlOp.instr : CtrlOp → Instr
  | .nop         => .nop
  | .exchN0 cmd  => .exchN0 cmd
  | .exchN1 cmd  => .exchN1 cmd
  | .exchN2 cmd  => .exchN2 cmd
  | .illExchN3   => .illExchN3
  | .crcClr      => .crcClr
  | .crcAdd b    => .crcAdd b
  | .convT x     => .convT x
  | .convRhl x   => .convRhl x
  | .convRht x   => .convRht x
  | .illOp7      => .illOp7
  | .illOp8to15  => .illOp8to15

/-- An EXCH word by its N field (R80, R84): 0 to 2 payload bytes, 3 illegal (R201). -/
def decodeExch (w : Word) : CtrlOp :=
  match (ctrlN w).toNat with
  | 0 => .exchN0 (ctrlArg8 w)
  | 1 => .exchN1 (ctrlArg8 w)
  | 2 => .exchN2 (ctrlArg8 w)
  | _ => .illExchN3

/-- The operation a CTRL word selects (R81); every word selects one (R84), and bits the operation does not read are
ignored (R83). -/
def decodeCtrl (w : Word) : CtrlOp :=
  match (ctrlOp w).toNat with
  | 0 => .nop
  | 1 => decodeExch w
  | 2 => .crcClr
  | 3 => .crcAdd (ctrlArg8 w)
  | 4 => .convT (ctrlArg16 w)
  | 5 => .convRhl (ctrlArg16 w)
  | 6 => .convRht (ctrlArg16 w)
  | 7 => .illOp7
  | _ => .illOp8to15

/-! ## Wire commands (R86, R88) -/

/-- The command a wire byte names (R88). PRESUMED (the spec's own codes, from general knowledge), log entry 7. -/
def decodeWire (b : Byte) : Decoded :=
  match b.toNat with
  | 0x03 => .ok .wireMeasureTemperature
  | 0x05 => .ok .wireMeasureRelativeHumidity
  | 0x07 => .ok .wireReadStatusRegister
  | 0x1E => .ok .wireSoftReset
  | _    => .rejected (.unnamedWireCommand b)

/-! ## Host transactions (R60 to R62, R87, R203, R204) -/

/-- The read of a register (R203). -/
def rdInstr : Reg → Instr
  | .ctrl    => .rdCtrl
  | .status  => .rdStatus
  | .rxdata  => .rdRxdata
  | .raw     => .rdRaw
  | .polls   => .rdPolls
  | .crc     => .rdCrc
  | .temp    => .rdTemp
  | .rhlLo   => .rdRhlLo
  | .rhlHi   => .rdRhlHi
  | .rhtLo   => .rdRhtLo
  | .rhtHi   => .rdRhtHi
  | .lastcmd => .rdLastcmd
  | .pins    => .rdPins
  | .rsvd34  => .rdRsvd34
  | .rsvd38  => .rdRsvd38
  | .rsvd3C  => .rdRsvd3C

/-- The write of a value to a register (R204). -/
def wrInstr : Reg → Word → Instr
  | .ctrl,    v => .wrCtrl v
  | .status,  v => .wrRoStatus v
  | .rxdata,  v => .wrRoRxdata v
  | .raw,     v => .wrRoRaw v
  | .polls,   v => .wrRoPolls v
  | .crc,     v => .wrRoCrc v
  | .temp,    v => .wrTemp v
  | .rhlLo,   v => .wrRoRhlLo v
  | .rhlHi,   v => .wrRoRhlHi v
  | .rhtLo,   v => .wrRoRhtLo v
  | .rhtHi,   v => .wrRoRhtHi v
  | .lastcmd, v => .wrRoLastcmd v
  | .pins,    v => .wrRoPins v
  | .rsvd34,  v => .wrRsvd34 v
  | .rsvd38,  v => .wrRsvd38 v
  | .rsvd3C,  v => .wrRsvd3C v

/-- A transaction of the one admitted width at an offset (R61): keyed on `{RW, OFF}`; the DATA of a read is unused
(R87). -/
def decodeTxn (write : Bool) (off : Nat) (v : Word) : Decoded :=
  match regAt off with
  | some r => .ok (if write then wrInstr r v else rdInstr r)
  | none   => .rejected (if off % 4 = 0 then .outsideWindow off else .misaligned off)

/-- A bus access (R60): refused unless it is 4 bytes wide, aligned and inside the window (R61). -/
def decodeAccess (a : BusAccess) : Decoded :=
  if a.width = 4 then decodeTxn a.write a.off a.data else .rejected (.accessWidth a.width)

/-- The instruction that bytes, lowest lane first, stand for: one byte a WIRE_CMD (R86), four a CTRL word (R80, R90), six
a HOST_TXN `{RW, OFF[7:0], DATA[31:0]}` of 41 bits (R87). -/
def decode : List Byte → Decoded
  | [b] => decodeWire b
  | [b0, b1, b2, b3] => .ok (decodeCtrl (ofLanes b0 b1 b2 b3)).instr
  | [b0, b1, b2, b3, off, rw] =>
      match rw.toNat with
      | 0 => decodeTxn false off.toNat (ofLanes b0 b1 b2 b3)
      | 1 => decodeTxn true off.toNat (ofLanes b0 b1 b2 b3)
      | _ => .rejected (.spareBits rw)
  | bytes => .rejected (.formLength bytes.length)

/-- The instruction a host's request stands for. -/
def decodeRequest : HostRequest → Decoded
  | .access a    => decodeAccess a
  | .coded bytes => decode bytes

/-! ## The encoder -/

/-- A CTRL word from its OP, bits 15:8 and bits 31:16 (R80); the ignored bits 7:4 are written as 0 (R83). -/
def ctrlWord (op : BitVec 4) (arg8 : Byte) (arg16 : BitVec 16) : Word := arg16 ++ arg8 ++ 0#4 ++ op

/-- The HOST_TXN bytes of a read (R87): RW = 0, DATA = 0. -/
def rdBytes (r : Reg) : List Byte := lanes 0 ++ [BitVec.ofNat 8 r.offset, 0]

/-- The HOST_TXN bytes of a write (R87): RW = 1. -/
def wrBytes (r : Reg) (v : Word) : List Byte := lanes v ++ [BitVec.ofNat 8 r.offset, 1]

/-- The bytes of an instruction, lowest lane first, ignored bits 0 (R80, R81, R83, R87, R88). -/
def encode : Instr → List Byte
  | .nop         => lanes (ctrlWord 0 0 0)
  | .exchN0 cmd  => lanes (ctrlWord 1 cmd 0)
  | .exchN1 cmd  => lanes (ctrlWord 1 cmd 1)
  | .exchN2 cmd  => lanes (ctrlWord 1 cmd 2)
  | .illExchN3   => lanes (ctrlWord 1 0 3)
  | .crcClr      => lanes (ctrlWord 2 0 0)
  | .crcAdd b    => lanes (ctrlWord 3 b 0)
  | .convT x     => lanes (ctrlWord 4 0 x)
  | .convRhl x   => lanes (ctrlWord 5 0 x)
  | .convRht x   => lanes (ctrlWord 6 0 x)
  | .illOp7      => lanes (ctrlWord 7 0 0)
  | .illOp8to15  => lanes (ctrlWord 8 0 0)
  | .wireMeasureTemperature      => [0x03]
  | .wireMeasureRelativeHumidity => [0x05]
  | .wireReadStatusRegister      => [0x07]
  | .wireSoftReset               => [0x1E]
  | .rdCtrl      => rdBytes .ctrl
  | .rdStatus    => rdBytes .status
  | .rdRxdata    => rdBytes .rxdata
  | .rdRaw       => rdBytes .raw
  | .rdPolls     => rdBytes .polls
  | .rdCrc       => rdBytes .crc
  | .rdTemp      => rdBytes .temp
  | .rdRhlLo     => rdBytes .rhlLo
  | .rdRhlHi     => rdBytes .rhlHi
  | .rdRhtLo     => rdBytes .rhtLo
  | .rdRhtHi     => rdBytes .rhtHi
  | .rdLastcmd   => rdBytes .lastcmd
  | .rdPins      => rdBytes .pins
  | .rdRsvd34    => rdBytes .rsvd34
  | .rdRsvd38    => rdBytes .rsvd38
  | .rdRsvd3C    => rdBytes .rsvd3C
  | .wrCtrl v      => wrBytes .ctrl v
  | .wrTemp v      => wrBytes .temp v
  | .wrRoStatus v  => wrBytes .status v
  | .wrRoRxdata v  => wrBytes .rxdata v
  | .wrRoRaw v     => wrBytes .raw v
  | .wrRoPolls v   => wrBytes .polls v
  | .wrRoCrc v     => wrBytes .crc v
  | .wrRoRhlLo v   => wrBytes .rhlLo v
  | .wrRoRhlHi v   => wrBytes .rhlHi v
  | .wrRoRhtLo v   => wrBytes .rhtLo v
  | .wrRoRhtHi v   => wrBytes .rhtHi v
  | .wrRoLastcmd v => wrBytes .lastcmd v
  | .wrRoPins v    => wrBytes .pins v
  | .wrRsvd34 v    => wrBytes .rsvd34 v
  | .wrRsvd38 v    => wrBytes .rsvd38 v
  | .wrRsvd3C v    => wrBytes .rsvd3C v

/-! ## Words as the opcode table numbers their bits -/

/-- The low `k` bytes of a number, least significant first. -/
def bytesOf : Nat → Nat → List Byte
  | 0,     _ => []
  | k + 1, w => BitVec.ofNat 8 w :: bytesOf k (w / 256)

/-- How many bytes a row of `nbits` bits has: WIRE_CMD 8 bits, CTRL 32, HOST_TXN 41 (in whole bytes 48). -/
def formBytes (nbits : Nat) : Nat := if nbits ≤ 8 then 1 else if nbits ≤ 32 then 4 else 6

/-- The bytes of an instruction whose bits, numbered as the opcode table numbers them, are `w`. -/
def tableBytes (nbits w : Nat) : List Byte := bytesOf (formBytes nbits) w

/-- The instruction the decoder reads from a word of the opcode table. -/
def decodeTableWord (nbits w : Nat) : Option Instr :=
  match decode (tableBytes nbits w) with
  | .ok i       => some i
  | .rejected _ => none

end Sys2Proof
end

