-- ==== Sys2Proof/Machine/State.lean ====
section
/-! DEFINITION. The state (`10_state.md` rules R20 to R46), the reset state (`70_reset_and_hazards.md` rule R250) and the
reasons a step can stop. -/

namespace Sys2Proof.Machine

/-- `E.PHASE` (R41). Codes 10 to 15 are never held (R41), so the type has no value for them. -/
inductive Phase where
  | idle
  | setup
  | start
  | cmd
  | ackrel
  | wait
  | poll
  | shiftin
  | rxack
  | final
deriving DecidableEq, Repr, Inhabited

/-- `STATUS.RESULT` (R28, R221). The other codes are never held (R28), so the type has no value for them;
`hwUnavailable` is named by rule R28 and never written by the block (R222). -/
inductive Result where
  | none
  | success
  | checksumMismatch
  | ioError
  | timeout
  | hwUnavailable
deriving DecidableEq, Repr, Inhabited

/-- The mirrors of the PINS register (R39). -/
structure Pins where
  sckDir  : Direction
  sckLvl  : Level
  dataDir : Direction
  dataLvl : Level
  dataIn  : Level
deriving DecidableEq, Repr

/-- The engine's internal state `E` (R40), each element at its width. -/
structure Engine where
  phase : Phase
  step  : BitVec 3
  bit   : BitVec 3
  byte  : BitVec 2
  cmd   : Byte
  n     : BitVec 2
  sr    : Byte
  buf0  : Byte
  buf1  : Byte
  buf2  : Byte
  crc   : Byte
deriving DecidableEq, Repr

/-- The machine: the host-visible registers (R21 to R39), the engine's internal state (R40) and the line trace (R66);
then the model's own fields, which are not the block's: the instance parameter `POLL_LIMIT` (R6), what the host's reads
returned, and the inputs to come. CTRL holds nothing (R22), STATUS.PHASE is read from `eng.phase` (R29), CRC.REV is
computed (R34) and reserved fields read 0 (R30, R62): none of them is stored. -/
structure State where
  /-- STATUS.BUSY (R23). -/
  busy      : Bool
  /-- STATUS.DONE (R24). -/
  done      : Bool
  /-- STATUS.VALID (R25). -/
  valid     : Bool
  /-- STATUS.OVR, sticky (R26). -/
  ovr       : Bool
  /-- STATUS.ILL, sticky (R27). -/
  ill       : Bool
  /-- STATUS.RESULT (R28). -/
  result    : Result
  /-- RXDATA (R31). -/
  rxdata    : Word
  /-- RAW bits 15:0; bits 31:16 read 0 (R32). -/
  raw       : BitVec 16
  /-- POLLS (R33). -/
  polls     : Word
  /-- CRC.ACC (R34). -/
  crcAcc    : Byte
  /-- TEMP.T_C100 (R35). -/
  temp      : BitVec 17
  /-- RL_E10, read as RHL_LO and RHL_HI (R36). -/
  rhl       : BitVec 48
  /-- RT_E10, read as RHT_LO and RHT_HI (R37). -/
  rht       : BitVec 48
  /-- LASTCMD.CMD (R38). -/
  lastCmd   : Byte
  /-- LASTCMD.N (R38). -/
  lastN     : BitVec 2
  /-- PINS (R39). -/
  pins      : Pins
  /-- `E` (R40). -/
  eng       : Engine
  /-- The line trace `LT` of the exchange, oldest first (R66). -/
  lt        : List LineEvent
  /-- `POLL_LIMIT` (R6), the model's own field: no step changes it. Log entry 2. -/
  pollLimit : Option PollBound
  /-- The values the host's reads returned, oldest first (R203): the host's, not the block's. Log entry 4. -/
  reads     : List Word
  /-- The host transactions, engine steps and resets to come, in their one order (R72). Log entry 1. -/
  inputs    : List Input
  /-- How many inputs have come as free values: the model's own counter. Log entry 1. -/
  drawn     : Nat
deriving DecidableEq, Repr

/-- The mirrors after reset: all 0, which is `In` and `Low` (R39, R250). -/
def Pins.reset : Pins :=
  { sckDir := .input, sckLvl := .low, dataDir := .input, dataLvl := .low, dataIn := .low }

/-- The engine after reset: 0 each, `E.PHASE = IDLE` (R250). -/
def Engine.reset : Engine :=
  { phase := .idle, step := 0, bit := 0, byte := 0, cmd := 0, n := 0, sr := 0, buf0 := 0, buf1 := 0, buf2 := 0, crc := 0 }

/-- The machine right after reset (R250). `pollLimit` is the reference behaviour `none` (R6, conflict C1): DESIGN CHOICE,
log entry 2. The other fields of the model's own are empty: DESIGN CHOICE, log entries 1 and 4. -/
def State.reset : State :=
  { busy := false, done := false, valid := false, ovr := false, ill := false, result := .none,
    rxdata := 0, raw := 0, polls := 0, crcAcc := 0, temp := 0, rhl := 0, rht := 0, lastCmd := 0, lastN := 0,
    pins := Pins.reset, eng := Engine.reset, lt := [],
    pollLimit := none, reads := [], inputs := [], drawn := 0 }

/-- Why a step faults. -/
inductive Fault where
  /-- Raised by an engine step in a state where no rule R123 to R135 names an operation: `E.N = 3`, `E.BYTE > E.N` or an
  `E.STEP` the phase does not have. Safe: rule R121 lets the engine issue no other operation, and no run reaches such a
  state. DESIGN CHOICE, log entry 9. -/
  | noEngineOperation
deriving DecidableEq, Repr

/-- Why a step is refused. -/
inductive Refusal where
  /-- An instruction without a meaning: none is left. Safe. -/
  | notModelled (mnemonic : String)
  /-- Raised by a host step whose request is no admitted transaction (R61) or no form of the opcode table: the block has
  no step for it and no state changes. Safe. -/
  | notAdmitted (why : Reject)
deriving DecidableEq, Repr

/-- What a step or a meaning answers. -/
abbrev Answered := Host.Outcome State Fault Refusal

end Sys2Proof.Machine
end

