-- ==== Sys2Proof/Machine/Flags.lean ====
section
/-! DEFINITION. STATUS (`10_state.md` rules R23 to R30): its codes, the word a read returns, and the writes of its sticky
bits. The block has no other flags (R44); BUSY, DONE, VALID and RESULT are written only by `acceptExchange` and `finish`
of `Machine/Ops.lean`. -/

namespace Sys2Proof.Machine

/-- The code of a phase (R41). -/
def phaseCode : Phase → BitVec 8
  | .idle    => 0
  | .setup   => 1
  | .start   => 2
  | .cmd     => 3
  | .ackrel  => 4
  | .wait    => 5
  | .poll    => 6
  | .shiftin => 7
  | .rxack   => 8
  | .final   => 9

/-- The code of a result (R28, R221). -/
def resultCode : Result → BitVec 4
  | .none             => 0
  | .success          => 1
  | .checksumMismatch => 2
  | .ioError          => 3
  | .timeout          => 4
  | .hwUnavailable    => 6

/-- The STATUS word (R23 to R30): PHASE 23:16 live, RESULT 11:8, ILL 4, OVR 3, VALID 2, DONE 1, BUSY 0, the rest 0. -/
def statusWord (s : State) : Word :=
  0#8 ++ phaseCode s.eng.phase ++ 0#4 ++ resultCode s.result ++ 0#3 ++
    BitVec.ofBool s.ill ++ BitVec.ofBool s.ovr ++ BitVec.ofBool s.valid ++ BitVec.ofBool s.done ++ BitVec.ofBool s.busy

/-- An illegal CTRL word sets the sticky bit ILL and nothing else (R27, R201). -/
def setIll (s : State) : State := { s with ill := true }

/-- A legal EXCH word written while BUSY = 1 sets the sticky bit OVR and nothing else (R26, R202). -/
def setOvr (s : State) : State := { s with ovr := true }

/-- NOP clears the two sticky bits and nothing else (R200). -/
def clearSticky (s : State) : State := { s with ovr := false, ill := false }

end Sys2Proof.Machine
end

