-- ==== Sys2Proof/Machine/Operands.lean ====
section
/-! DEFINITION. Operands that are not taken as they stand from the instruction (`30_encoding.md` rule R82) and the values
that pass between the engine and a line (`20_memory.md` rules R64, R65; `41_protocol.md` rules R125, R132). -/

namespace Sys2Proof.Machine

/-- The temperature operand of CONV_RHT, `int_17(TEMP[16:0])` in hundredths (R82, R184). -/
def temperatureOperand (s : State) : Int := s.temp.toInt

/-- The level a command bit is driven at (R125). -/
def levelOfBit (b : Bool) : Level := if b then .high else .low

/-- The bit a sampled level gives (R132). -/
def bitOfLevel : Level → Byte
  | .high => 1
  | .low  => 0

/-- Is a level High, as a mirror bit says it (R39, R66). -/
def levelBit : Level → Bool
  | .high => true
  | .low  => false

/-- Is a direction Out, as a mirror bit says it (R39, R66). -/
def directionBit : Direction → Bool
  | .output => true
  | .input  => false

/-- The answer an operation gets from what the environment presents: of the operation's answer type, and every answer of
that type from some presentation (R64, R65). -/
def answerTo : LineOp → EnvReply → Answer
  | .get _,   .done v => .lvl v
  | .dir _ _, .done _ => .ok
  | .set _ _, .done _ => .ok
  | _,        .ioErr  => .ioErr

/-- `E.N ∈ {0, 1, 2}` and `E.BYTE ≤ E.N` (R45). -/
abbrev CountsLegal (e : Engine) : Prop := e.n ≤ 2 ∧ e.byte ≤ e.n

/-- `E.BUF[j]` (R40). -/
def bufAt (e : Engine) (j : BitVec 2) : Byte :=
  match j.toNat with
  | 0 => e.buf0
  | 1 => e.buf1
  | _ => e.buf2

/-- `E.BUF[j] <- b` (R40). -/
def setBuf (e : Engine) (j : BitVec 2) (b : Byte) : Engine :=
  match j.toNat with
  | 0 => { e with buf0 := b }
  | 1 => { e with buf1 := b }
  | _ => { e with buf2 := b }

/-- The payload bytes `E.BUF[0]` to `E.BUF[E.N − 1]` in the order received (R137). -/
def payload (e : Engine) : List Byte := [e.buf0, e.buf1, e.buf2].take e.n.toNat

/-- The checksum byte as received, `E.BUF[E.N]` (R40, R134). -/
def checksumByte (e : Engine) : Byte := bufAt e e.n

/-- The RawWord (R139): two payload bytes, the first in bits 15:8; one, zero-extended; none, 0. -/
def rawWord (e : Engine) : BitVec 16 :=
  match e.n.toNat with
  | 0 => 0
  | 1 => e.buf0.setWidth 16
  | _ => e.buf0 ++ e.buf1

end Sys2Proof.Machine
end

