-- ==== Sys2Proof/Machine/Ops.lean ====
section
/-! DEFINITION. The operations the meanings share. The block has no traps (`60_exceptions.md` rules R220, R225); what
stands in the place of taking an exception is `finish`, the one way an exchange ends with a result (`41_protocol.md` rule
R140), and in the place of a return the next accepted EXCH (R120). -/

namespace Sys2Proof.Machine

/-! ## The host window (R21, R60) -/

/-- The CRC word (R34): ACC in 7:0, REV = rev8(ACC) in 15:8, computed. -/
def crcWord (s : State) : Word := 0#16 ++ rev8 s.crcAcc ++ s.crcAcc

/-- The LASTCMD word (R38): CMD in 7:0, N in 9:8. -/
def lastcmdWord (s : State) : Word := 0#22 ++ s.lastN ++ s.lastCmd

/-- The PINS word (R39). -/
def pinsWord (p : Pins) : Word :=
  0#27 ++ BitVec.ofBool (levelBit p.dataIn) ++ BitVec.ofBool (levelBit p.dataLvl) ++
    BitVec.ofBool (directionBit p.dataDir) ++ BitVec.ofBool (levelBit p.sckLvl) ++ BitVec.ofBool (directionBit p.sckDir)

/-- The low word of a 48-bit result (R36, R37). -/
def loWord (v : BitVec 48) : Word := v.extractLsb' 0 32

/-- The high word of a 48-bit result, sign-extended (R36, R37). -/
def hiWord (v : BitVec 48) : Word := (v.extractLsb' 32 16).signExtend 32

/-- The 32-bit value of a register (R21 to R39, R203); CTRL and the reserved offsets read 0 (R62). -/
def regValue (s : State) : Reg → Word
  | .ctrl    => 0
  | .status  => statusWord s
  | .rxdata  => s.rxdata
  | .raw     => s.raw.setWidth 32
  | .polls   => s.polls
  | .crc     => crcWord s
  | .temp    => s.temp.signExtend 32
  | .rhlLo   => loWord s.rhl
  | .rhlHi   => hiWord s.rhl
  | .rhtLo   => loWord s.rht
  | .rhtHi   => hiWord s.rht
  | .lastcmd => lastcmdWord s
  | .pins    => pinsWord s.pins
  | .rsvd34  => 0
  | .rsvd38  => 0
  | .rsvd3C  => 0

/-- A host read returns a register's value and changes nothing of the block (R63, R203); the value goes to the host. -/
def hostRead (r : Reg) (s : State) : State := { s with reads := s.reads ++ [regValue s r] }

/-! ## Starting and ending an exchange -/

/-- The engine as an accepted EXCH leaves it (R120). -/
def freshEngine (cmd : Byte) (n : BitVec 2) : Engine :=
  { phase := .setup, step := 0, bit := 7, byte := 0, cmd := cmd, n := n, sr := 0, buf0 := 0, buf1 := 0, buf2 := 0, crc := 0 }

/-- What an accepted EXCH writes (R120). RESULT keeps the previous exchange's code. -/
def acceptExchange (cmd : Byte) (n : BitVec 2) (s : State) : State :=
  { s with
      eng := freshEngine cmd n, lastCmd := cmd, lastN := n,
      polls := 0, rxdata := 0, raw := 0,
      valid := false, done := false, busy := true, lt := [] }

/-- A legal EXCH word, N ≤ 2 (R120): accepted when the block is not busy, else discarded with OVR (R202). -/
def startExchange (cmd : Byte) (n : BitVec 2) (s : State) : State :=
  if s.busy then setOvr s else acceptExchange cmd n s

/-- Does an exchange that ends with this result publish its bytes (R25, R140)? -/
def publishes (res : Result) (n : BitVec 2) : Bool :=
  (res == .success || res == .checksumMismatch) && n != 0

/-- The RXDATA word an exchange publishes (R31, R140): CRCREV, CKSUM, B1 (0 when N < 2), B0. -/
def rxdataWord (e : Engine) : Word :=
  rev8 e.crc ++ checksumByte e ++ (if e.n = 2 then e.buf1 else 0) ++ e.buf0

/-- `finish(res)`, the end of an exchange (R140): all of it in one step. -/
def finish (res : Result) (s : State) : State :=
  { s with
      result := res,
      rxdata := if publishes res s.eng.n then rxdataWord s.eng else s.rxdata,
      raw    := if publishes res s.eng.n then rawWord s.eng else s.raw,
      valid  := publishes res s.eng.n,
      done := true, busy := false,
      eng := { s.eng with phase := .idle, step := 0 } }

/-- The engine's CRC at FINAL (R137): over the command byte and the payload bytes, never the checksum byte. -/
def exchangeCrc (e : Engine) : Byte := crcFold 0 (e.cmd :: payload e)

/-- The checksum verdict (R138), from `E.CRC`; with N = 0 there is no comparison. -/
def verdict (e : Engine) : Result :=
  if e.n = 0 then .success
  else if rev8 e.crc = checksumByte e then .success else .checksumMismatch

/-! ## Reset -/

/-- Reset, at any time (R250, R251): every element of the block's state takes its reset value; the parameter (R6), what
the host has read and the inputs to come are not the block's and stay. No line operation is issued (R253). -/
def resetBlock (s : State) : State :=
  { State.reset with pollLimit := s.pollLimit, reads := s.reads, inputs := s.inputs, drawn := s.drawn }

end Sys2Proof.Machine
end

