-- ==== Sys2Proof/Machine/Control.lean ====
section
/-! DEFINITION. NOP, EXCH and the illegal CTRL words (`43_control.md` rules R200 to R202, `41_protocol.md` rule R120), and
the four commands as the exchanges that send them (`41_protocol.md` rules R147 to R151). -/

namespace Sys2Proof.Machine

/-- NOP: clears the two sticky bits (R200). -/
def execNop (s : State) : Answered := .next (clearSticky s)

/-- EXCH cmd, 0 (R120): a command-only exchange (R127). -/
def execExchN0 (cmd : Byte) (s : State) : Answered := .next (startExchange cmd 0 s)

/-- EXCH cmd, 1 (R120). -/
def execExchN1 (cmd : Byte) (s : State) : Answered := .next (startExchange cmd 1 s)

/-- EXCH cmd, 2 (R120). -/
def execExchN2 (cmd : Byte) (s : State) : Answered := .next (startExchange cmd 2 s)

/-- EXCH with N = 3 is illegal: ILL only, whether BUSY is 0 or 1 (R201, R224). -/
def execIllExchN3 (s : State) : Answered := .next (setIll s)

/-- OP 7 is illegal (R201). -/
def execIllOp7 (s : State) : Answered := .next (setIll s)

/-- OP 8 to 15 are illegal (R201). -/
def execIllOp8to15 (s : State) : Answered := .next (setIll s)

/-- MeasureTemperature, `exch 0x03, 2` (R148). PRESUMED codes and counts, log entry 7. -/
def execWireMeasureTemperature (s : State) : Answered := .next (startExchange 0x03 2 s)

/-- MeasureRelativeHumidity, `exch 0x05, 2` (R149). -/
def execWireMeasureRelativeHumidity (s : State) : Answered := .next (startExchange 0x05 2 s)

/-- ReadStatusRegister, `exch 0x07, 1` (R150). -/
def execWireReadStatusRegister (s : State) : Answered := .next (startExchange 0x07 1 s)

/-- SoftReset, `exch 0x1E, 0` (R151). -/
def execWireSoftReset (s : State) : Answered := .next (startExchange 0x1E 0 s)

end Sys2Proof.Machine
end

