-- ==== Sys2Proof/Machine/Converter.lean ====
section
/-! DEFINITION. The converter (`42_converter.md` rules R180 to R184): exact scaled integers from the one record `COEFF`. -/

namespace Sys2Proof.Machine

/-- The parameter `COEFF` (R6, R180). -/
def coeff : Coeff :=
  { d1 := ⟨-3960, 2⟩, d2 := ⟨1, 2⟩,
    c1 := ⟨-20468, 4⟩, c2 := ⟨367, 4⟩, c3 := ⟨-15955, 10⟩,
    t1 := ⟨1, 2⟩, t2 := ⟨8, 5⟩ }

/-- A decimal times `10 ^ k`, an integer when the decimal has at most `k` places (R181). -/
def scaled (d : Decimal) (k : Nat) : Int := d.mant * 10 ^ (k - d.scale)

/-- `T_C100 = 100 · temperature(so_t)` (R181). -/
def tC100 (x : BitVec 16) : Int := scaled coeff.d1 2 + scaled coeff.d2 2 * x.toNat

/-- `RL_E10 = 10¹⁰ · rhLinear(so_rh)` (R181). -/
def rlE10 (x : BitVec 16) : Int :=
  scaled coeff.c1 10 + scaled coeff.c2 10 * x.toNat + scaled coeff.c3 10 * (x.toNat * x.toNat)

/-- `RT_E10 = 10¹⁰ · rhTrue(T / 100, so_rh)` (R181): the temperature's two places and eight of the sensitivity's. -/
def rtE10 (t : Int) (x : BitVec 16) : Int :=
  (t - 2500) * (scaled coeff.t1 8 + scaled coeff.t2 8 * x.toNat) + rlE10 x

/-- CONV_T x: `TEMP.T_C100 <- trunc_17(x − 3960)` (R182). -/
def execConvT (x : BitVec 16) (s : State) : Answered := .next { s with temp := BitVec.ofInt 17 (tC100 x) }

/-- CONV_RHL x: RHL_LO and RHL_HI together (R183). -/
def execConvRhl (x : BitVec 16) (s : State) : Answered := .next { s with rhl := BitVec.ofInt 48 (rlE10 x) }

/-- CONV_RHT x: RHT_LO and RHT_HI together, the temperature from TEMP; TEMP and RHL are not written (R184). -/
def execConvRht (x : BitVec 16) (s : State) : Answered :=
  .next { s with rht := BitVec.ofInt 48 (rtE10 (temperatureOperand s) x) }

end Sys2Proof.Machine
end

