-- ==== Sys2Proof/Machine/CrcUnit.lean ====
section
/-! DEFINITION. The host CRC unit's operations (`40_crc.md` rules R104, R105), performed whatever STATUS.BUSY is
(`43_control.md` rule R205). Its `value()` and `reversed()` are the fields of `rd CRC` (R106, R107). -/

namespace Sys2Proof.Machine

/-- CRC_CLR: `CRC.ACC <- 0x00` (R104). -/
def execCrcClr (s : State) : Answered := .next { s with crcAcc := 0 }

/-- CRC_ADD b: `CRC.ACC <- CRC_TABLE[CRC.ACC ^ b]` (R105). -/
def execCrcAdd (b : Byte) (s : State) : Answered := .next { s with crcAcc := crcStep s.crcAcc b }

end Sys2Proof.Machine
end

