-- ==== Sys2Proof/Machine/Window.lean ====
section
/-! DEFINITION. The host transactions (`43_control.md` rules R203, R204; `20_memory.md` rules R60 to R63). -/

namespace Sys2Proof.Machine

/-! ## Reads (R203): the register's value goes to the host, the block keeps its state (R63) -/

/-- `rd CTRL` (reads 0 (R22, R62)). -/
def execRdCtrl (s : State) : Answered := .next (hostRead .ctrl s)

/-- `rd STATUS` (R23 to R30). -/
def execRdStatus (s : State) : Answered := .next (hostRead .status s)

/-- `rd RXDATA` (R31). -/
def execRdRxdata (s : State) : Answered := .next (hostRead .rxdata s)

/-- `rd RAW` (R32). -/
def execRdRaw (s : State) : Answered := .next (hostRead .raw s)

/-- `rd POLLS` (R33). -/
def execRdPolls (s : State) : Answered := .next (hostRead .polls s)

/-- `rd CRC` (R34, R106, R107). -/
def execRdCrc (s : State) : Answered := .next (hostRead .crc s)

/-- `rd TEMP` (R35). -/
def execRdTemp (s : State) : Answered := .next (hostRead .temp s)

/-- `rd RHL_LO` (R36). -/
def execRdRhlLo (s : State) : Answered := .next (hostRead .rhlLo s)

/-- `rd RHL_HI` (R36). -/
def execRdRhlHi (s : State) : Answered := .next (hostRead .rhlHi s)

/-- `rd RHT_LO` (R37). -/
def execRdRhtLo (s : State) : Answered := .next (hostRead .rhtLo s)

/-- `rd RHT_HI` (R37). -/
def execRdRhtHi (s : State) : Answered := .next (hostRead .rhtHi s)

/-- `rd LASTCMD` (R38). -/
def execRdLastcmd (s : State) : Answered := .next (hostRead .lastcmd s)

/-- `rd PINS` (R39). -/
def execRdPins (s : State) : Answered := .next (hostRead .pins s)

/-- `rd 0x34` (reserved, reads 0 (R62)). -/
def execRdRsvd34 (s : State) : Answered := .next (hostRead .rsvd34 s)

/-- `rd 0x38` (reserved, reads 0 (R62)). -/
def execRdRsvd38 (s : State) : Answered := .next (hostRead .rsvd38 s)

/-- `rd 0x3C` (reserved, reads 0 (R62)). -/
def execRdRsvd3C (s : State) : Answered := .next (hostRead .rsvd3C s)

/-! ## Writes (R204) -/

/-- The operation a CTRL word selects, performed (R22, R204): each is the meaning of its own row. -/
def performCtrl : CtrlOp → State → Answered
  | .nop,        s => execNop s
  | .exchN0 cmd, s => execExchN0 cmd s
  | .exchN1 cmd, s => execExchN1 cmd s
  | .exchN2 cmd, s => execExchN2 cmd s
  | .illExchN3,  s => execIllExchN3 s
  | .crcClr,     s => execCrcClr s
  | .crcAdd b,   s => execCrcAdd b s
  | .convT x,    s => execConvT x s
  | .convRhl x,  s => execConvRhl x s
  | .convRht x,  s => execConvRht x s
  | .illOp7,     s => execIllOp7 s
  | .illOp8to15, s => execIllOp8to15 s

/-- `wr CTRL, v`: decode v and perform the operation it selects (R204). -/
def execWrCtrl (v : Word) (s : State) : Answered := performCtrl (decodeCtrl v) s

/-- `wr TEMP, v`: `T_C100 <- v[16:0]`, bits 31:17 ignored (R35, R204). -/
def execWrTemp (v : Word) (s : State) : Answered := .next { s with temp := v.extractLsb' 0 17 }

/-- A write to a read-only register or a reserved offset is ignored: no state changes, no status bit is set (R62). -/
def ignoredWrite (_v : Word) (s : State) : State := s

/-- `wr STATUS, v` is ignored (R62, R204). -/
def execWrRoStatus (v : Word) (s : State) : Answered := .next (ignoredWrite v s)

/-- `wr RXDATA, v` is ignored (R62, R204). -/
def execWrRoRxdata (v : Word) (s : State) : Answered := .next (ignoredWrite v s)

/-- `wr RAW, v` is ignored (R62, R204). -/
def execWrRoRaw (v : Word) (s : State) : Answered := .next (ignoredWrite v s)

/-- `wr POLLS, v` is ignored (R62, R204). -/
def execWrRoPolls (v : Word) (s : State) : Answered := .next (ignoredWrite v s)

/-- `wr CRC, v` is ignored (R62, R204). -/
def execWrRoCrc (v : Word) (s : State) : Answered := .next (ignoredWrite v s)

/-- `wr RHL_LO, v` is ignored (R62, R204). -/
def execWrRoRhlLo (v : Word) (s : State) : Answered := .next (ignoredWrite v s)

/-- `wr RHL_HI, v` is ignored (R62, R204). -/
def execWrRoRhlHi (v : Word) (s : State) : Answered := .next (ignoredWrite v s)

/-- `wr RHT_LO, v` is ignored (R62, R204). -/
def execWrRoRhtLo (v : Word) (s : State) : Answered := .next (ignoredWrite v s)

/-- `wr RHT_HI, v` is ignored (R62, R204). -/
def execWrRoRhtHi (v : Word) (s : State) : Answered := .next (ignoredWrite v s)

/-- `wr LASTCMD, v` is ignored (R62, R204). -/
def execWrRoLastcmd (v : Word) (s : State) : Answered := .next (ignoredWrite v s)

/-- `wr PINS, v` is ignored (R62, R204). -/
def execWrRoPins (v : Word) (s : State) : Answered := .next (ignoredWrite v s)

/-- `wr 0x34, v` is ignored (R62, R204). -/
def execWrRsvd34 (v : Word) (s : State) : Answered := .next (ignoredWrite v s)

/-- `wr 0x38, v` is ignored (R62, R204). -/
def execWrRsvd38 (v : Word) (s : State) : Answered := .next (ignoredWrite v s)

/-- `wr 0x3C, v` is ignored (R62, R204). -/
def execWrRsvd3C (v : Word) (s : State) : Answered := .next (ignoredWrite v s)

end Sys2Proof.Machine
end

