-- ==== Sys2Proof/Machine/Dispatch.lean ====
section
/-! DEFINITION. `exec`: one arm per constructor of `Instr`, each one call of that instruction's meaning. -/

namespace Sys2Proof.Machine

def exec (i : Instr) (s : State) : Host.Outcome State Fault Refusal :=
  match i with
  | .nop => Sys2Proof.Machine.execNop s
  | .exchN0 cmd => Sys2Proof.Machine.execExchN0 cmd s
  | .exchN1 cmd => Sys2Proof.Machine.execExchN1 cmd s
  | .exchN2 cmd => Sys2Proof.Machine.execExchN2 cmd s
  | .illExchN3 => Sys2Proof.Machine.execIllExchN3 s
  | .crcClr => Sys2Proof.Machine.execCrcClr s
  | .crcAdd b => Sys2Proof.Machine.execCrcAdd b s
  | .convT x => Sys2Proof.Machine.execConvT x s
  | .convRhl x => Sys2Proof.Machine.execConvRhl x s
  | .convRht x => Sys2Proof.Machine.execConvRht x s
  | .illOp7 => Sys2Proof.Machine.execIllOp7 s
  | .illOp8to15 => Sys2Proof.Machine.execIllOp8to15 s
  | .wireMeasureTemperature => Sys2Proof.Machine.execWireMeasureTemperature s
  | .wireMeasureRelativeHumidity => Sys2Proof.Machine.execWireMeasureRelativeHumidity s
  | .wireReadStatusRegister => Sys2Proof.Machine.execWireReadStatusRegister s
  | .wireSoftReset => Sys2Proof.Machine.execWireSoftReset s
  | .rdCtrl => Sys2Proof.Machine.execRdCtrl s
  | .rdStatus => Sys2Proof.Machine.execRdStatus s
  | .rdRxdata => Sys2Proof.Machine.execRdRxdata s
  | .rdRaw => Sys2Proof.Machine.execRdRaw s
  | .rdPolls => Sys2Proof.Machine.execRdPolls s
  | .rdCrc => Sys2Proof.Machine.execRdCrc s
  | .rdTemp => Sys2Proof.Machine.execRdTemp s
  | .rdRhlLo => Sys2Proof.Machine.execRdRhlLo s
  | .rdRhlHi => Sys2Proof.Machine.execRdRhlHi s
  | .rdRhtLo => Sys2Proof.Machine.execRdRhtLo s
  | .rdRhtHi => Sys2Proof.Machine.execRdRhtHi s
  | .rdLastcmd => Sys2Proof.Machine.execRdLastcmd s
  | .rdPins => Sys2Proof.Machine.execRdPins s
  | .rdRsvd34 => Sys2Proof.Machine.execRdRsvd34 s
  | .rdRsvd38 => Sys2Proof.Machine.execRdRsvd38 s
  | .rdRsvd3C => Sys2Proof.Machine.execRdRsvd3C s
  | .wrCtrl v => Sys2Proof.Machine.execWrCtrl v s
  | .wrTemp v => Sys2Proof.Machine.execWrTemp v s
  | .wrRoStatus v => Sys2Proof.Machine.execWrRoStatus v s
  | .wrRoRxdata v => Sys2Proof.Machine.execWrRoRxdata v s
  | .wrRoRaw v => Sys2Proof.Machine.execWrRoRaw v s
  | .wrRoPolls v => Sys2Proof.Machine.execWrRoPolls v s
  | .wrRoCrc v => Sys2Proof.Machine.execWrRoCrc v s
  | .wrRoRhlLo v => Sys2Proof.Machine.execWrRoRhlLo v s
  | .wrRoRhlHi v => Sys2Proof.Machine.execWrRoRhlHi v s
  | .wrRoRhtLo v => Sys2Proof.Machine.execWrRoRhtLo v s
  | .wrRoRhtHi v => Sys2Proof.Machine.execWrRoRhtHi v s
  | .wrRoLastcmd v => Sys2Proof.Machine.execWrRoLastcmd v s
  | .wrRoPins v => Sys2Proof.Machine.execWrRoPins v s
  | .wrRsvd34 v => Sys2Proof.Machine.execWrRsvd34 v s
  | .wrRsvd38 v => Sys2Proof.Machine.execWrRsvd38 v s
  | .wrRsvd3C v => Sys2Proof.Machine.execWrRsvd3C v s

end Sys2Proof.Machine
end

