-- ==== Sys2Proof/Machine/Engine.lean ====
section
/-! DEFINITION. The engine agent (`41_protocol.md` rules R121 to R138): which operation a step issues, what the answer does
to the trace and the mirrors, and how the phases advance. -/

namespace Sys2Proof.Machine

/-! ## The operations of each phase, in order of `E.STEP` -/

/-- SETUP (R123). -/
def setupOps : List LineOp :=
  [.dir .sck .output, .dir .data .output, .set .sck .low, .set .data .high]

/-- START (R124). -/
def startOps : List LineOp :=
  [.set .sck .high, .set .data .low, .set .sck .low, .set .sck .high, .set .data .high, .set .sck .low, .set .data .low]

/-- CMD, for one bit of the command (R125). -/
def cmdOps (bit : Bool) : List LineOp :=
  [.set .data (levelOfBit bit), .set .sck .high, .set .sck .low]

/-- ACKREL (R126): no `Get(DATA)`, the sensor's acknowledgment is not sampled (R128). -/
def ackrelOps : List LineOp :=
  [.dir .data .input, .set .sck .high, .set .sck .low]

/-- SHIFTIN, for one bit of a byte (R132). -/
def shiftinOps : List LineOp :=
  [.set .sck .high, .get .data, .set .sck .low]

/-- RXACK (R133), after every received byte, the checksum byte included (R145). -/
def rxackOps : List LineOp :=
  [.dir .data .output, .set .data .low, .set .sck .high, .set .sck .low, .dir .data .input]

/-- FINAL (R135). -/
def finalOps : List LineOp :=
  [.dir .data .output, .set .data .high]

/-- What one engine step does on the lines: issue an operation, or let the fixed delay pass (R129). -/
inductive EngineAct where
  | line (o : LineOp)
  | delay
deriving DecidableEq, Repr

/-- What the phase rule names for (E.PHASE, E.STEP, E.BIT, E.CMD) (R121, R123 to R135); nothing while IDLE, and nothing for
an `E.STEP` the phase does not have. -/
def phaseAct (e : Engine) : Option EngineAct :=
  match e.phase with
  | .idle    => none
  | .setup   => setupOps[e.step.toNat]?.map .line
  | .start   => startOps[e.step.toNat]?.map .line
  | .cmd     => (cmdOps (e.cmd.getLsbD e.bit.toNat))[e.step.toNat]?.map .line
  | .ackrel  => ackrelOps[e.step.toNat]?.map .line
  | .wait    => some .delay
  | .poll    => some (.line (.get .data))
  | .shiftin => shiftinOps[e.step.toNat]?.map .line
  | .rxack   => rxackOps[e.step.toNat]?.map .line
  | .final   => finalOps[e.step.toNat]?.map .line

/-- What the engine does next (R121): what the phase rule names, in a state whose counters the rules speak of (R40, R45). -/
def engineAct (e : Engine) : Option EngineAct := if CountsLegal e then phaseAct e else none

/-! ## The trace and the mirrors (R66) -/

/-- The mirrors after an answered operation (R39, R66): an `IoErr` changes none. -/
def mirror (o : LineOp) (a : Answer) (p : Pins) : Pins :=
  match o, a with
  | .dir .sck d,  .ok    => { p with sckDir := d }
  | .dir .data d, .ok    => { p with dataDir := d }
  | .set .sck v,  .ok    => { p with sckLvl := v }
  | .set .data v, .ok    => { p with dataLvl := v }
  | .get .data,   .lvl v => { p with dataIn := v }
  | _,            _      => p

/-- The part of the engine step every line operation shares (R121): the trace and the mirrors. -/
def observe (o : LineOp) (a : Answer) (s : State) : State :=
  { s with lt := s.lt ++ [.op o a], pins := mirror o a s.pins }

/-! ## The phases' effects and advances -/

/-- `E.STEP <- E.STEP + 1`. -/
def nextStep (s : State) : State := { s with eng := { s.eng with step := s.eng.step + 1 } }

/-- Enter a phase with `E.STEP = 0`. -/
def enterPhase (p : Phase) (s : State) : State := { s with eng := { s.eng with phase := p, step := 0 } }

/-- The next bit of the same byte: `E.BIT <- E.BIT − 1; E.STEP <- 0` (R125, R132). -/
def nextBit (s : State) : State := { s with eng := { s.eng with bit := s.eng.bit - 1, step := 0 } }

/-- SETUP's advance (R123). -/
def afterSetup (s : State) : State :=
  if s.eng.step = 3 then enterPhase .start s else nextStep s

/-- START's advance (R124). -/
def afterStart (s : State) : State :=
  if s.eng.step = 6 then { s with eng := { s.eng with phase := .cmd, bit := 7, step := 0 } } else nextStep s

/-- CMD's advance (R125). -/
def afterCmd (s : State) : State :=
  if s.eng.step = 2 then
    if s.eng.bit = 0 then enterPhase .ackrel s else nextBit s
  else nextStep s

/-- ACKREL's advance (R126) and the choice after it (R127): with a response the fixed delay, without one FINAL. Entering
WAIT writes `E.PHASE` alone. DEDUCED, log entry 10. -/
def afterAckrel (s : State) : State :=
  if s.eng.step = 2 then
    if s.eng.n = 0 then enterPhase .final s else { s with eng := { s.eng with phase := .wait } }
  else nextStep s

/-- The WAIT step (R129): the event `Delay(T_CONV)`, then POLL. It cannot fail. -/
def waitStep (s : State) : State :=
  { s with lt := s.lt ++ [.delay], eng := { s.eng with phase := .poll } }

/-- One more poll answered with a level, saturating at 0xFFFFFFFF (R33, R130). -/
def countPoll (p : Word) : Word := if p = 0xFFFFFFFF then p else p + 1

/-- Is the poll bound reached (R131)? -/
def pollBoundReached (limit : Option PollBound) (polls : Word) : Bool :=
  match limit with
  | none   => false
  | some n => decide (n.val ≤ polls)

/-- A byte's shift-in begins (R130, R134): `E.BIT <- 7; E.SR <- 0; E.STEP <- 0` with the byte's index. -/
def startByte (j : BitVec 2) (s : State) : State :=
  { s with eng := { s.eng with phase := .shiftin, byte := j, bit := 7, sr := 0, step := 0 } }

/-- A poll answered Low (R130): ready. -/
def pollLow (s : State) : State := startByte 0 { s with polls := countPoll s.polls }

/-- A poll answered High (R130, R131): another poll, or TIMEOUT at the bound. -/
def pollHigh (s : State) : State :=
  if pollBoundReached s.pollLimit (countPoll s.polls) then finish .timeout { s with polls := countPoll s.polls }
  else { s with polls := countPoll s.polls }

/-- POLL's effect (R130, R131). -/
def afterPoll (v : Level) (s : State) : State :=
  match v with
  | .low  => pollLow s
  | .high => pollHigh s

/-- A sampled bit enters the receive shift register (R132). -/
def shiftBit (sr : Byte) (v : Level) : Byte := (sr <<< 1) + bitOfLevel v

/-- The byte is complete (R132): `E.BUF[E.BYTE] <- E.SR`, then its acknowledgment. -/
def storeByte (s : State) : State :=
  { s with eng := { setBuf s.eng s.eng.byte s.eng.sr with phase := .rxack, step := 0 } }

/-- SHIFTIN's effect and advance (R132). -/
def afterShiftin (a : Answer) (s : State) : State :=
  if s.eng.step = 2 then
    if s.eng.bit = 0 then storeByte s else nextBit s
  else
    match a with
    | .lvl v => nextStep { s with eng := { s.eng with sr := shiftBit s.eng.sr v } }
    | _      => nextStep s

/-- RXACK's advance (R133) and the choice after it (R134): the next byte, or FINAL after the checksum byte. -/
def afterRxack (s : State) : State :=
  if s.eng.step = 4 then
    if s.eng.byte < s.eng.n then startByte (s.eng.byte + 1) s else enterPhase .final s
  else nextStep s

/-- The exchange's CRC and verdict, and `finish` (R135, R137, R138). -/
def conclude (s : State) : State :=
  let s' : State := { s with eng := { s.eng with crc := exchangeCrc s.eng } }
  finish (verdict s'.eng) s'

/-- FINAL's advance (R135). -/
def afterFinal (s : State) : State :=
  if s.eng.step = 1 then conclude s else nextStep s

/-- The phase rule's effect for an operation answered without `IoErr`, and the advance (R121). -/
def phaseEffect (a : Answer) (s : State) : State :=
  match s.eng.phase with
  | .idle    => s
  | .setup   => afterSetup s
  | .start   => afterStart s
  | .cmd     => afterCmd s
  | .ackrel  => afterAckrel s
  | .wait    => s
  | .poll    => match a with
                | .lvl v => afterPoll v s
                | _      => s
  | .shiftin => afterShiftin a s
  | .rxack   => afterRxack s
  | .final   => afterFinal s

/-! ## The engine step -/

/-- An engine step that issues `o` and is answered `a` (R121): the trace and the mirrors, then `finish(IO_ERROR)` (R122) or
the phase rule's effect. -/
def lineStep (o : LineOp) (a : Answer) (s : State) : State :=
  if a = .ioErr then finish .ioError (observe o a s) else phaseEffect a (observe o a s)

/-- One engine step while an exchange runs (R121), the environment presenting `r`. -/
def engineStep (r : EnvReply) (s : State) : Answered :=
  match engineAct s.eng with
  | some (.line o) => .next (lineStep o (answerTo o r) s)
  | some .delay    => .next (waitStep s)
  | none           => .fault .noEngineOperation

/-- The engine's place in the order (R121): it has a step exactly when `E.PHASE ≠ IDLE`; else nothing happens. DESIGN
CHOICE for the idle engine, log entry 3. -/
def engineTurn (r : EnvReply) (s : State) : Answered :=
  if s.eng.phase = .idle then .next s else engineStep r s

/-- Engine steps one after another, the environment presenting the replies in turn. -/
def engineRun : List EnvReply → State → Answered
  | [],      s => .next s
  | r :: rs, s =>
    match engineTurn r s with
    | .next s'   => engineRun rs s'
    | .fault f   => .fault f
    | .refused f => .refused f

end Sys2Proof.Machine
end

