-- ==== Sys2Proof/Machine/Turn.lean ====
section
/-! DEFINITION. What one input does: a host transaction (`20_memory.md` rules R60, R61), an engine step (R121) or reset
(R251), each atomic, in the one order of rule R72. -/

namespace Sys2Proof.Machine

/-- A host step: the instruction its request stands for, or no step (R61). -/
def hostTurn (r : HostRequest) (s : State) : Answered :=
  match decodeRequest r with
  | .ok i         => exec i s
  | .rejected why => .refused (.notAdmitted why)

/-- What one input does (R5, R72). -/
def takeInput (inp : Input) (s : State) : Answered :=
  match inp with
  | .host r   => hostTurn r s
  | .engine r => engineTurn r s
  | .reset    => .next (resetBlock s)

/-- The input a step takes: the first one listed, or a free one where none is listed. DESIGN CHOICE, log entry 1. -/
def firstInput (s : State) : Input :=
  match s.inputs with
  | []       => Config.freeInput s.drawn
  | inp :: _ => inp

/-- The state once that input is taken from its source. -/
def dropInput (s : State) : State :=
  match s.inputs with
  | []        => { s with drawn := s.drawn + 1 }
  | _ :: rest => { s with inputs := rest }

/-- The state in which a request comes next. -/
def pushRequest (r : HostRequest) (s : State) : State := { s with inputs := .host r :: s.inputs }

end Sys2Proof.Machine
end

