-- ==== Sys2Proof/Machine/Step.lean ====
section
/-! DEFINITION. One step: the next input in the one order of `20_memory.md` rule R72 is taken. The block fetches nothing
(rules R43, R75): an instruction reaches it as a host's request. -/

namespace Sys2Proof.Machine

/-- One step of the machine: the next host transaction, engine step or reset (R5, R72). -/
def step (s : State) : Host.Outcome State Fault Refusal := takeInput (firstInput s) (dropInput s)

/-- The state in which the very next step is the host's request for the table's word: the program a host runs is loaded
from outside the machine, and this stands for that load. DESIGN CHOICE, log entry 1. -/
def State.withFetchWord (s : State) (nbits w : Nat) : State := pushRequest (.coded (tableBytes nbits w)) s

end Sys2Proof.Machine
end

