-- ==== Sys2Proof/Machine/Assembler.lean ====
section
/-! DEFINITION. The host side of the spec's assembly language (`30_encoding.md` rules R91, R92) and its wait loop
(`43_control.md` rule R206). The control of a host's program (labels, `goto`, `stop`) is the host's state, outside the
block (`10_state.md` rule R43). -/

namespace Sys2Proof.Machine

/-- The pseudo-instructions that issue one transaction (R92). -/
inductive Pseudo where
  | nop
  | exch (c : Byte) (n : BitVec 2)
  | crcclr
  | crcadd (b : Byte)
  | convt (x : BitVec 16)
  | convrhl (x : BitVec 16)
  | convrht (x : BitVec 16)
  | settemp (t : BitVec 17)
  | measureT
  | measureRh
  | readStatus
  | softReset
deriving DecidableEq, Repr

/-- `exch c, n` is `wr CTRL, (n << 16) + (c << 8) + 0x1` (R92). -/
def exchWord (c : Byte) (n : BitVec 2) : Word := (n.setWidth 32 <<< 16) + (c.setWidth 32 <<< 8) + 0x1

/-- The transaction a pseudo-instruction expands to (R92). -/
def Pseudo.expand : Pseudo → Instr
  | .nop        => .wrCtrl 0x00000000
  | .exch c n   => .wrCtrl (exchWord c n)
  | .crcclr     => .wrCtrl 0x00000002
  | .crcadd b   => .wrCtrl ((b.setWidth 32 <<< 8) + 0x3)
  | .convt x    => .wrCtrl ((x.setWidth 32 <<< 16) + 0x4)
  | .convrhl x  => .wrCtrl ((x.setWidth 32 <<< 16) + 0x5)
  | .convrht x  => .wrCtrl ((x.setWidth 32 <<< 16) + 0x6)
  | .settemp t  => .wrTemp (t.signExtend 32)
  | .measureT   => .wrCtrl (exchWord 0x03 2)
  | .measureRh  => .wrCtrl (exchWord 0x05 2)
  | .readStatus => .wrCtrl (exchWord 0x07 1)
  | .softReset  => .wrCtrl (exchWord 0x1E 0)

/-- The bus access of `rd REG` and `wr REG, VALUE` (R91). -/
def rdAccess (r : Reg) : BusAccess := { write := false, off := r.offset, width := 4, data := 0 }

/-- The bus access of `wr REG, VALUE` (R91). -/
def wrAccess (r : Reg) (v : Word) : BusAccess := { write := true, off := r.offset, width := 4, data := v }

/-- `waitdone` (R206): read STATUS until BUSY reads 0, one engine step between two reads, the environment presenting the
replies in turn. It answers the word last read and the state; nothing where the replies end first (the wait that does not
return) or the engine's step is no step. -/
def waitDone : List EnvReply → State → Option (Word × State)
  | rs, s =>
    if (statusWord s).getLsbD 0 then
      match rs with
      | []      => none
      | r :: rs =>
        match engineTurn r (hostRead .status s) with
        | .next s' => waitDone rs s'
        | _        => none
    else some (statusWord s, hostRead .status s)

end Sys2Proof.Machine
end

