-- ==== Sys2Proof/Machine/Trace.lean ====
section
/-! DEFINITION. The complete line trace of an exchange, written out from `41_protocol.md` rule R141 and not from the
engine's tables, and the counts of rule R142. Claims compare the engine's runs with it. -/

namespace Sys2Proof.Machine

/-- An operation answered Ok. -/
def okEvent (o : LineOp) : LineEvent := .op o .ok

/-- A clock pulse `P` (R141). -/
def pulseTrace : List LineEvent := [okEvent (.set .sck .high), okEvent (.set .sck .low)]

/-- The bits of a byte in wire order, most significant first (R68). -/
def wireBits (b : Byte) : List Bool :=
  [b.getLsbD 7, b.getLsbD 6, b.getLsbD 5, b.getLsbD 4, b.getLsbD 3, b.getLsbD 2, b.getLsbD 1, b.getLsbD 0]

/-- SETUP, 4 operations (R141). -/
def setupTrace : List LineEvent :=
  [okEvent (.dir .sck .output), okEvent (.dir .data .output), okEvent (.set .sck .low), okEvent (.set .data .high)]

/-- START, 7 operations (R141). -/
def startTrace : List LineEvent :=
  [okEvent (.set .sck .high), okEvent (.set .data .low), okEvent (.set .sck .low), okEvent (.set .sck .high),
   okEvent (.set .data .high), okEvent (.set .sck .low), okEvent (.set .data .low)]

/-- CMD, 24 operations (R141). -/
def cmdTrace (cmd : Byte) : List LineEvent :=
  (wireBits cmd).flatMap fun b => okEvent (.set .data (if b then .high else .low)) :: pulseTrace

/-- ACKREL, 3 operations (R141). -/
def ackrelTrace : List LineEvent := okEvent (.dir .data .input) :: pulseTrace

/-- The `k` polls, High k − 1 times and then Low (R141). -/
def pollTrace (k : Nat) : List LineEvent :=
  List.replicate (k - 1) (.op (.get .data) (.lvl .high)) ++ [.op (.get .data) (.lvl .low)]

/-- One response byte and its acknowledgment, 29 operations (R141). -/
def byteTrace (r : Byte) : List LineEvent :=
  ((wireBits r).flatMap fun b =>
    [okEvent (.set .sck .high), .op (.get .data) (.lvl (if b then .high else .low)), okEvent (.set .sck .low)]) ++
  [okEvent (.dir .data .output), okEvent (.set .data .low), okEvent (.set .sck .high), okEvent (.set .sck .low),
   okEvent (.dir .data .input)]

/-- FINAL, 2 operations (R141). -/
def finalTrace : List LineEvent := [okEvent (.dir .data .output), okEvent (.set .data .high)]

/-- `trace(cmd, N, k, r)` with the answers (R141): `r` lists the response bytes, N payload bytes and the checksum byte;
it is empty for N = 0. -/
def exchangeTrace (cmd : Byte) (k : Nat) (r : List Byte) : List LineEvent :=
  setupTrace ++ startTrace ++ cmdTrace cmd ++ ackrelTrace ++
    (if r.isEmpty then [] else .delay :: pollTrace k ++ r.flatMap byteTrace) ++ finalTrace

/-- What the environment presents makes an event's answer (R65); the WAIT step looks at nothing it presents. -/
def presents : LineEvent → EnvReply → Prop
  | .op o a, r => answerTo o r = a
  | .delay,  _ => True

/-- Is an event a line operation (R142)? -/
def isLineOp : LineEvent → Bool
  | .op _ _ => true
  | .delay  => false

/-- Is an event a `Set(SCK, High)` (R142)? -/
def isPulse : LineEvent → Bool
  | .op (.set .sck .high) _ => true
  | _                       => false

/-- Is an event a `Get(DATA)` (R142)? -/
def isSample : LineEvent → Bool
  | .op (.get .data) _ => true
  | _                  => false

end Sys2Proof.Machine
end

