-- ==== Sys2Proof/Safety.lean ====
section
/-! DEFINITION. What the claims are stated in: the block's part of a state, the invariants of the spec's own prose
(`10_state.md` rule R45, `41_protocol.md` rules R131 and R143, `70_reset_and_hazards.md` rule R256), and a step that does
not fault. -/

namespace Sys2Proof.Machine

/-- A state with the model's own fields blanked: what the spec gives the block (R20). -/
def blockPart (s : State) : State := { s with pollLimit := none, reads := [], inputs := [], drawn := 0 }

/-- Two states agree on every piece of the block's state. -/
def SameBlock (s t : State) : Prop := blockPart s = blockPart t

/-- The invariants of rule R45, with LASTCMD equal to what the engine latched (R38). -/
structure BlockInv (s : State) : Prop where
  /-- R45 clause 1. -/
  busy_iff_running : s.busy = true ↔ s.eng.phase ≠ .idle
  /-- R45 clause 2. -/
  busy_xor_done : ¬ (s.busy = true ∧ s.done = true)
  /-- R45 clause 3. -/
  valid_has_result : s.valid = true → s.done = true ∧ (s.result = .success ∨ s.result = .checksumMismatch) ∧ 1 ≤ s.lastN.toNat
  /-- R45 clause 4. -/
  counts_legal : CountsLegal s.eng
  /-- R45 clause 5: CRCREV is RXDATA 31:24, CKSUM is RXDATA 23:16. -/
  verdict_published : s.valid = true → (s.rxdata.extractLsb' 24 8 = s.rxdata.extractLsb' 16 8 ↔ s.result = .success)
  /-- R45 clause 6: REV is CRC 15:8, ACC is CRC 7:0. -/
  rev_is_computed : (regValue s .crc).extractLsb' 8 8 = rev8 ((regValue s .crc).extractLsb' 0 8)
  /-- R38: the values equal `E.CMD` and `E.N`. -/
  lastcmd_is_latched : s.lastCmd = s.eng.cmd ∧ s.lastN = s.eng.n

/-- How many values `E.STEP` takes in a phase (R123 to R135); IDLE, WAIT and POLL do not look at it. -/
def phaseSteps : Phase → Nat
  | .idle    => 8
  | .setup   => 4
  | .start   => 7
  | .cmd     => 3
  | .ackrel  => 3
  | .wait    => 8
  | .poll    => 8
  | .shiftin => 3
  | .rxack   => 5
  | .final   => 2

/-- The engine's counters are ones a phase rule speaks of (R40, R45). -/
def SequenceInv (s : State) : Prop := CountsLegal s.eng ∧ s.eng.step.toNat < phaseSteps s.eng.phase

/-- Has this exchange set SCK to Out by now (R123)? -/
def sckConfigured (e : Engine) : Bool :=
  match e.phase with
  | .idle  => false
  | .setup => e.step != 0
  | _      => true

/-- The direction DATA has by now in this exchange, where the phase rules have set it (R123 to R135). -/
def dataConfigured (e : Engine) : Option Direction :=
  match e.phase with
  | .idle    => none
  | .setup   => if e.step = 0 ∨ e.step = 1 then none else some .output
  | .start   => some .output
  | .cmd     => some .output
  | .ackrel  => some (if e.step = 0 then .output else .input)
  | .wait    => some .input
  | .poll    => some .input
  | .shiftin => some .input
  | .rxack   => some (if e.step = 0 then .input else .output)
  | .final   => some (if e.step = 0 then .input else .output)

/-- The mirrors show the directions the phase rules have set (R143). -/
def DirectionInv (s : State) : Prop :=
  (sckConfigured s.eng = true → s.pins.sckDir = .output) ∧
  ∀ d, dataConfigured s.eng = some d → s.pins.dataDir = d

/-- The GpioLine contract (R64, R143): a level is driven only on an Output, and sampled only on an Input. -/
def contractHolds (p : Pins) : LineOp → Prop
  | .dir _ _     => True
  | .set .sck _  => p.sckDir = .output
  | .set .data _ => p.dataDir = .output
  | .get .sck    => p.sckDir = .input
  | .get .data   => p.dataDir = .input

/-- The poll count and the bound (R33, R131): no poll before POLL, and never more than the bound. -/
def PollInv (s : State) : Prop :=
  (s.eng.phase ∈ [Phase.setup, .start, .cmd, .ackrel, .wait] → s.polls = 0) ∧
  ∀ n, s.pollLimit = some n → s.polls ≤ n.val ∧ (s.eng.phase = .poll → s.polls < n.val)

/-- While BUSY = 1 the results of the exchange are not there yet (R256). -/
def QuietInv (s : State) : Prop :=
  s.busy = true → s.rxdata = 0 ∧ s.raw = 0 ∧ s.valid = false ∧ s.done = false

/-- A step that does not fault. -/
def NoFault (s : State) : Prop := ∀ f, step s ≠ .fault f

end Sys2Proof.Machine
end

