-- ==== Sys2Proof/Certificates/Slice0/Obligations.lean ====
section
/-! DEFINITION. The statements for the provers. -/

open Sys2Proof Sys2Proof.Machine

/-! ## Encodings -/

/-- Decoding the encoding of an instruction gives it back, whatever its operands (`30_encoding.md` rules R80 to R88). The
byte forms are the model's (log entry 5). -/
def Obligations.DecodeOfEncode : Prop :=
  ∀ i : Instr, i.wf = true → decode (encode i) = .ok i

/-- The ten worked CTRL words of rule R85 (the spec's own derivation), as bytes in lane order (R70), decode to the
operations it names. The byte form is the model's (log entry 5). -/
def Obligations.WorkedCtrlWordsDecode : Prop :=
  decode (lanes 0x00000000) = .ok .nop ∧
  decode (lanes 0x00020301) = .ok (.exchN2 0x03) ∧
  decode (lanes 0x00020501) = .ok (.exchN2 0x05) ∧
  decode (lanes 0x00010701) = .ok (.exchN1 0x07) ∧
  decode (lanes 0x00001E01) = .ok (.exchN0 0x1E) ∧
  decode (lanes 0x00000002) = .ok .crcClr ∧
  decode (lanes 0x00000503) = .ok (.crcAdd 0x05) ∧
  decode (lanes 0x17700004) = .ok (.convT 6000) ∧
  decode (lanes 0x03E80005) = .ok (.convRhl 1000) ∧
  decode (lanes 0x03E80006) = .ok (.convRht 1000)

/-- The CTRL rows of the opcode table as (match, mask, is this the row of the operation). -/
def Sys2Proof.ctrlRows : List (Word × Word × (CtrlOp → Bool)) :=
  [ (0x00000000, 0x0000000F, fun o => o matches .nop),
    (0x00000001, 0x0003000F, fun o => o matches .exchN0 _),
    (0x00010001, 0x0003000F, fun o => o matches .exchN1 _),
    (0x00020001, 0x0003000F, fun o => o matches .exchN2 _),
    (0x00030001, 0x0003000F, fun o => o matches .illExchN3),
    (0x00000002, 0x0000000F, fun o => o matches .crcClr),
    (0x00000003, 0x0000000F, fun o => o matches .crcAdd _),
    (0x00000004, 0x0000000F, fun o => o matches .convT _),
    (0x00000005, 0x0000000F, fun o => o matches .convRhl _),
    (0x00000006, 0x0000000F, fun o => o matches .convRht _),
    (0x00000007, 0x0000000F, fun o => o matches .illOp7),
    (0x00000008, 0x00000008, fun o => o matches .illOp8to15) ]

/-- The spec's own derivation in rule R84: exactly one CTRL row of the opcode table matches any word, and it is the row of
the operation the word decodes to. -/
def Obligations.CtrlRowsPartitionAllWords : Prop :=
  ∀ w : Word, ∃ row, ctrlRows.filter (fun r => w &&& r.2.1 == r.1) = [row] ∧ row.2.2 (decodeCtrl w) = true

/-- Rule R83: two words that agree on the bits their operation reads do the same. -/
def Obligations.UnreadCtrlBitsAreIgnored : Prop :=
  ∀ (w w' : Word) (s : State), w &&& 0xF = w' &&& 0xF →
    ((w &&& 0xF = 0 ∨ w &&& 0xF = 2 ∨ 7 ≤ w &&& 0xF) → exec (.wrCtrl w) s = exec (.wrCtrl w') s) ∧
    (w &&& 0xF = 1 → w &&& 0x0003FF00 = w' &&& 0x0003FF00 → exec (.wrCtrl w) s = exec (.wrCtrl w') s) ∧
    (w &&& 0xF = 3 → w &&& 0x0000FF00 = w' &&& 0x0000FF00 → exec (.wrCtrl w) s = exec (.wrCtrl w') s) ∧
    ((w &&& 0xF = 4 ∨ w &&& 0xF = 5 ∨ w &&& 0xF = 6) → w &&& 0xFFFF0000 = w' &&& 0xFFFF0000 →
      exec (.wrCtrl w) s = exec (.wrCtrl w') s)

/-- Rule R92: each pseudo-instruction's transaction does what the operation it names does. The last four use the command
codes and counts, PRESUMED (log entry 7). -/
def Obligations.PseudoInstructionsDoTheirOperation : Prop :=
  ∀ s : State,
    exec Pseudo.nop.expand s = exec .nop s ∧
    (∀ c, exec (Pseudo.exch c 0).expand s = exec (.exchN0 c) s) ∧
    (∀ c, exec (Pseudo.exch c 1).expand s = exec (.exchN1 c) s) ∧
    (∀ c, exec (Pseudo.exch c 2).expand s = exec (.exchN2 c) s) ∧
    (∀ c, exec (Pseudo.exch c 3).expand s = exec .illExchN3 s) ∧
    exec Pseudo.crcclr.expand s = exec .crcClr s ∧
    (∀ b, exec (Pseudo.crcadd b).expand s = exec (.crcAdd b) s) ∧
    (∀ x, exec (Pseudo.convt x).expand s = exec (.convT x) s) ∧
    (∀ x, exec (Pseudo.convrhl x).expand s = exec (.convRhl x) s) ∧
    (∀ x, exec (Pseudo.convrht x).expand s = exec (.convRht x) s) ∧
    (∀ t : BitVec 17, exec (Pseudo.settemp t).expand s = .next { s with temp := t }) ∧
    exec Pseudo.measureT.expand s = exec (.exchN2 0x03) s ∧
    exec Pseudo.measureRh.expand s = exec (.exchN2 0x05) s ∧
    exec Pseudo.readStatus.expand s = exec (.exchN1 0x07) s ∧
    exec Pseudo.softReset.expand s = exec (.exchN0 0x1E) s

/-! ## One step -/

/-- When the next input is a host's request that stands for the instruction `i`, the step is `exec` of `i` at the state
with that input taken (R72). The list of inputs is the model's (log entry 1). -/
def Obligations.StepRunsTheRequestedInstruction : Prop :=
  ∀ (s : State) (r : HostRequest) (rest : List Input) (i : Instr),
    s.inputs = .host r :: rest → decodeRequest r = .ok i → i.wf = true →
    step s = exec i { s with inputs := rest }

/-- When the next input is an engine step, the step is one engine step if an exchange runs, and leaves the state as it is,
the input taken, if none does (R121; the idle case is the model's, log entry 3). -/
def Obligations.StepRunsTheEngine : Prop :=
  ∀ (s : State) (r : EnvReply) (rest : List Input),
    s.inputs = .engine r :: rest →
    (s.eng.phase ≠ .idle → step s = engineStep r { s with inputs := rest }) ∧
    (s.eng.phase = .idle → step s = .next { s with inputs := rest })

/-- Rule R61: a bus access is admitted only when it is 4 bytes wide, aligned and within 0x00 to 0x3C; then the host step
answers a next state. Any other access has no step: it is refused, and no state comes of it. -/
def Obligations.OnlyAdmittedAccessesStep : Prop :=
  ∀ (s : State) (a : BusAccess),
    ((a.width = 4 ∧ a.off % 4 = 0 ∧ a.off ≤ 0x3C) → ∃ t, takeInput (.host (.access a)) s = .next t) ∧
    (¬ (a.width = 4 ∧ a.off % 4 = 0 ∧ a.off ≤ 0x3C) →
      ∃ why, takeInput (.host (.access a)) s = .refused (.notAdmitted why))

/-- The register map of rule R21: the 4-byte access at each of the sixteen offsets, written out, does what the read or the
write of that offset's register does (R203, R204), whatever the data of a read; and the coded form of a transaction (R87;
the byte form is the model's, log entry 5) does what its access does. -/
def Obligations.AccessesReachTheirRegister : Prop :=
  ∀ (s : State) (v : Word),
    takeInput (.host (.access ⟨false, 0x00, 4, v⟩)) s = exec .rdCtrl s ∧
    takeInput (.host (.access ⟨false, 0x04, 4, v⟩)) s = exec .rdStatus s ∧
    takeInput (.host (.access ⟨false, 0x08, 4, v⟩)) s = exec .rdRxdata s ∧
    takeInput (.host (.access ⟨false, 0x0C, 4, v⟩)) s = exec .rdRaw s ∧
    takeInput (.host (.access ⟨false, 0x10, 4, v⟩)) s = exec .rdPolls s ∧
    takeInput (.host (.access ⟨false, 0x14, 4, v⟩)) s = exec .rdCrc s ∧
    takeInput (.host (.access ⟨false, 0x18, 4, v⟩)) s = exec .rdTemp s ∧
    takeInput (.host (.access ⟨false, 0x1C, 4, v⟩)) s = exec .rdRhlLo s ∧
    takeInput (.host (.access ⟨false, 0x20, 4, v⟩)) s = exec .rdRhlHi s ∧
    takeInput (.host (.access ⟨false, 0x24, 4, v⟩)) s = exec .rdRhtLo s ∧
    takeInput (.host (.access ⟨false, 0x28, 4, v⟩)) s = exec .rdRhtHi s ∧
    takeInput (.host (.access ⟨false, 0x2C, 4, v⟩)) s = exec .rdLastcmd s ∧
    takeInput (.host (.access ⟨false, 0x30, 4, v⟩)) s = exec .rdPins s ∧
    takeInput (.host (.access ⟨false, 0x34, 4, v⟩)) s = exec .rdRsvd34 s ∧
    takeInput (.host (.access ⟨false, 0x38, 4, v⟩)) s = exec .rdRsvd38 s ∧
    takeInput (.host (.access ⟨false, 0x3C, 4, v⟩)) s = exec .rdRsvd3C s ∧
    takeInput (.host (.access ⟨true, 0x00, 4, v⟩)) s = exec (.wrCtrl v) s ∧
    takeInput (.host (.access ⟨true, 0x04, 4, v⟩)) s = exec (.wrRoStatus v) s ∧
    takeInput (.host (.access ⟨true, 0x08, 4, v⟩)) s = exec (.wrRoRxdata v) s ∧
    takeInput (.host (.access ⟨true, 0x0C, 4, v⟩)) s = exec (.wrRoRaw v) s ∧
    takeInput (.host (.access ⟨true, 0x10, 4, v⟩)) s = exec (.wrRoPolls v) s ∧
    takeInput (.host (.access ⟨true, 0x14, 4, v⟩)) s = exec (.wrRoCrc v) s ∧
    takeInput (.host (.access ⟨true, 0x18, 4, v⟩)) s = exec (.wrTemp v) s ∧
    takeInput (.host (.access ⟨true, 0x1C, 4, v⟩)) s = exec (.wrRoRhlLo v) s ∧
    takeInput (.host (.access ⟨true, 0x20, 4, v⟩)) s = exec (.wrRoRhlHi v) s ∧
    takeInput (.host (.access ⟨true, 0x24, 4, v⟩)) s = exec (.wrRoRhtLo v) s ∧
    takeInput (.host (.access ⟨true, 0x28, 4, v⟩)) s = exec (.wrRoRhtHi v) s ∧
    takeInput (.host (.access ⟨true, 0x2C, 4, v⟩)) s = exec (.wrRoLastcmd v) s ∧
    takeInput (.host (.access ⟨true, 0x30, 4, v⟩)) s = exec (.wrRoPins v) s ∧
    takeInput (.host (.access ⟨true, 0x34, 4, v⟩)) s = exec (.wrRsvd34 v) s ∧
    takeInput (.host (.access ⟨true, 0x38, 4, v⟩)) s = exec (.wrRsvd38 v) s ∧
    takeInput (.host (.access ⟨true, 0x3C, 4, v⟩)) s = exec (.wrRsvd3C v) s ∧
    ∀ off : Byte,
      takeInput (.host (.coded (lanes v ++ [off, 0]))) s = takeInput (.host (.access ⟨false, off.toNat, 4, v⟩)) s ∧
      takeInput (.host (.coded (lanes v ++ [off, 1]))) s = takeInput (.host (.access ⟨true, off.toNat, 4, v⟩)) s

/-- Every instruction completes in every state: no meaning faults or is refused (R220, and the rule of each row). -/
def Obligations.EveryInstructionCompletes : Prop :=
  ∀ (i : Instr) (s : State), ∃ t, exec i s = .next t ∧
    t.pollLimit = s.pollLimit ∧ t.inputs = s.inputs ∧ t.drawn = s.drawn

/-! ## Host reads and writes -/

/-- What each `rd` returns, field by field (R22 to R39, R62, R203), and that it leaves every piece of the block's state as
it is (R63). The list the value is appended to is the model's (log entry 4). -/
def Obligations.ReadsReturnTheirRegister : Prop :=
  ∀ s : State,
    exec .rdCtrl s = .next { s with reads := s.reads ++ [0] } ∧
    exec .rdStatus s = .next { s with reads := s.reads ++ [statusWord s] } ∧
    exec .rdRxdata s = .next { s with reads := s.reads ++ [s.rxdata] } ∧
    exec .rdRaw s = .next { s with reads := s.reads ++ [0#16 ++ s.raw] } ∧
    exec .rdPolls s = .next { s with reads := s.reads ++ [s.polls] } ∧
    exec .rdCrc s = .next { s with reads := s.reads ++ [0#16 ++ s.crcAcc.reverse ++ s.crcAcc] } ∧
    exec .rdTemp s = .next { s with reads := s.reads ++ [BitVec.ofInt 32 s.temp.toInt] } ∧
    exec .rdRhlLo s = .next { s with reads := s.reads ++ [BitVec.ofInt 32 s.rhl.toInt] } ∧
    exec .rdRhlHi s = .next { s with reads := s.reads ++ [BitVec.ofInt 32 (s.rhl.toInt / 2 ^ 32)] } ∧
    exec .rdRhtLo s = .next { s with reads := s.reads ++ [BitVec.ofInt 32 s.rht.toInt] } ∧
    exec .rdRhtHi s = .next { s with reads := s.reads ++ [BitVec.ofInt 32 (s.rht.toInt / 2 ^ 32)] } ∧
    exec .rdLastcmd s = .next { s with reads := s.reads ++ [0#22 ++ s.lastN ++ s.lastCmd] } ∧
    exec .rdPins s = .next { s with reads := s.reads ++ [0#27 ++
      BitVec.ofBool (s.pins.dataIn == .high) ++ BitVec.ofBool (s.pins.dataLvl == .high) ++
      BitVec.ofBool (s.pins.dataDir == .output) ++ BitVec.ofBool (s.pins.sckLvl == .high) ++
      BitVec.ofBool (s.pins.sckDir == .output)] } ∧
    exec .rdRsvd34 s = .next { s with reads := s.reads ++ [0] } ∧
    exec .rdRsvd38 s = .next { s with reads := s.reads ++ [0] } ∧
    exec .rdRsvd3C s = .next { s with reads := s.reads ++ [0] }

/-- The fields of the STATUS word (R23 to R29), with the result codes of R28 and the phase codes of R41 written out, its
reserved bits and its writes (R30). -/
def Obligations.StatusWordFields : Prop :=
  ∀ (s : State) (v : Word),
    ((statusWord s).getLsbD 0 = s.busy ∧ (statusWord s).getLsbD 1 = s.done ∧ (statusWord s).getLsbD 2 = s.valid ∧
     (statusWord s).getLsbD 3 = s.ovr ∧ (statusWord s).getLsbD 4 = s.ill) ∧
    ((statusWord s).extractLsb' 8 4 = 0 ↔ s.result = .none) ∧
    ((statusWord s).extractLsb' 8 4 = 1 ↔ s.result = .success) ∧
    ((statusWord s).extractLsb' 8 4 = 2 ↔ s.result = .checksumMismatch) ∧
    ((statusWord s).extractLsb' 8 4 = 3 ↔ s.result = .ioError) ∧
    ((statusWord s).extractLsb' 8 4 = 4 ↔ s.result = .timeout) ∧
    ((statusWord s).extractLsb' 16 8 = 0 ↔ s.eng.phase = .idle) ∧
    ((statusWord s).extractLsb' 16 8 = 1 ↔ s.eng.phase = .setup) ∧
    ((statusWord s).extractLsb' 16 8 = 2 ↔ s.eng.phase = .start) ∧
    ((statusWord s).extractLsb' 16 8 = 3 ↔ s.eng.phase = .cmd) ∧
    ((statusWord s).extractLsb' 16 8 = 4 ↔ s.eng.phase = .ackrel) ∧
    ((statusWord s).extractLsb' 16 8 = 5 ↔ s.eng.phase = .wait) ∧
    ((statusWord s).extractLsb' 16 8 = 6 ↔ s.eng.phase = .poll) ∧
    ((statusWord s).extractLsb' 16 8 = 7 ↔ s.eng.phase = .shiftin) ∧
    ((statusWord s).extractLsb' 16 8 = 8 ↔ s.eng.phase = .rxack) ∧
    ((statusWord s).extractLsb' 16 8 = 9 ↔ s.eng.phase = .final) ∧
    ((statusWord s).extractLsb' 5 3 = 0 ∧ (statusWord s).extractLsb' 12 4 = 0 ∧ (statusWord s).extractLsb' 24 8 = 0) ∧
    exec (.wrRoStatus v) s = .next s

/-- Rule R62: CTRL and the reserved offsets read 0, a write to a read-only register or a reserved offset changes nothing,
and the reserved fields inside the registers read 0. -/
def Obligations.ReservedReadsZeroAndIgnoresWrites : Prop :=
  ∀ (s : State) (v : Word),
    (regValue s .ctrl = 0 ∧ regValue s .rsvd34 = 0 ∧ regValue s .rsvd38 = 0 ∧ regValue s .rsvd3C = 0) ∧
    (exec (.wrRoStatus v) s = .next s ∧ exec (.wrRoRxdata v) s = .next s ∧ exec (.wrRoRaw v) s = .next s ∧
     exec (.wrRoPolls v) s = .next s ∧ exec (.wrRoCrc v) s = .next s ∧ exec (.wrRoRhlLo v) s = .next s ∧
     exec (.wrRoRhlHi v) s = .next s ∧ exec (.wrRoRhtLo v) s = .next s ∧ exec (.wrRoRhtHi v) s = .next s ∧
     exec (.wrRoLastcmd v) s = .next s ∧ exec (.wrRoPins v) s = .next s ∧ exec (.wrRsvd34 v) s = .next s ∧
     exec (.wrRsvd38 v) s = .next s ∧ exec (.wrRsvd3C v) s = .next s) ∧
    (regValue s .status &&& 0xFF00F0E0 = 0 ∧ regValue s .raw &&& 0xFFFF0000 = 0 ∧ regValue s .crc &&& 0xFFFF0000 = 0 ∧
     regValue s .lastcmd &&& 0xFFFFFC00 = 0 ∧ regValue s .pins &&& 0xFFFFFFE0 = 0)

/-- Rules R35, R204: a write to TEMP sets `T_C100` to bits 16:0 and nothing else, and TEMP then reads that value
sign-extended, whatever bits 31:17 of the write were. -/
def Obligations.TempWriteKeepsSeventeenBits : Prop :=
  ∀ (v : Word) (s : State), ∃ t, exec (.wrTemp v) s = .next t ∧ t = { s with temp := t.temp } ∧
    t.temp.toNat = v.toNat % 2 ^ 17 ∧
    (regValue t .temp).toNat % 2 ^ 17 = v.toNat % 2 ^ 17 ∧
    ∀ j, 16 ≤ j → j < 32 → (regValue t .temp).getLsbD j = v.getLsbD 16

/-- Rule R204: a write to CTRL performs the operation its word decodes to; a write to TEMP sets `T_C100` to bits 16:0; a
write anywhere else has no effect. Every write completes. -/
def Obligations.WritesDoWhatTheirOffsetSays : Prop :=
  ∀ (v : Word) (s : State),
    (exec (.wrCtrl v) s = exec (decodeCtrl v).instr s ∧ ∃ t, exec (.wrCtrl v) s = .next t) ∧
    exec (.wrTemp v) s = .next { s with temp := BitVec.ofNat 17 v.toNat } ∧
    ∀ i : Instr,
      (i = .wrRoStatus v ∨ i = .wrRoRxdata v ∨ i = .wrRoRaw v ∨ i = .wrRoPolls v ∨ i = .wrRoCrc v ∨ i = .wrRoRhlLo v ∨
       i = .wrRoRhlHi v ∨ i = .wrRoRhtLo v ∨ i = .wrRoRhtHi v ∨ i = .wrRoLastcmd v ∨ i = .wrRoPins v ∨
       i = .wrRsvd34 v ∨ i = .wrRsvd38 v ∨ i = .wrRsvd3C v) →
      exec i s = .next s

/-! ## Control operations -/

/-- Rule R200: NOP, and every CTRL word whose OP is 0, clears OVR and ILL and changes nothing else. -/
def Obligations.NopClearsStickyBits : Prop :=
  ∀ s : State, exec .nop s = .next { s with ovr := false, ill := false } ∧
    ∀ w : Word, w.toNat % 16 = 0 → exec (.wrCtrl w) s = .next { s with ovr := false, ill := false }

/-- Rule R201: an illegal word (OP 7 to 15, or EXCH with N = 3) sets ILL and changes nothing else, busy or not. -/
def Obligations.IllegalWordsSetIllOnly : Prop :=
  ∀ s : State,
    exec .illOp7 s = .next { s with ill := true } ∧
    exec .illOp8to15 s = .next { s with ill := true } ∧
    exec .illExchN3 s = .next { s with ill := true } ∧
    ∀ w : Word, (7 ≤ w.toNat % 16 ∨ (w.toNat % 16 = 1 ∧ w.toNat / 2 ^ 16 % 4 = 3)) →
      exec (.wrCtrl w) s = .next { s with ill := true }

/-- Rule R202: a legal EXCH written while BUSY = 1 sets OVR and changes nothing else. -/
def Obligations.ExchWhileBusySetsOvrOnly : Prop :=
  ∀ (s : State) (cmd : Byte), s.busy = true →
    exec (.exchN0 cmd) s = .next { s with ovr := true } ∧
    exec (.exchN1 cmd) s = .next { s with ovr := true } ∧
    exec (.exchN2 cmd) s = .next { s with ovr := true } ∧
    ∀ w : Word, w.toNat % 16 = 1 → w.toNat / 2 ^ 16 % 4 ≠ 3 → exec (.wrCtrl w) s = .next { s with ovr := true }

/-- The state rule R120 gives an accepted `EXCH cmd, n`, written out from its pseudocode. -/
def Sys2Proof.acceptedExch (cmd : Byte) (n : BitVec 2) (s : State) : State :=
  { s with
      eng := { phase := .setup, step := 0, bit := 7, byte := 0, cmd := cmd, n := n, sr := 0,
               buf0 := 0, buf1 := 0, buf2 := 0, crc := 0 },
      lastCmd := cmd, lastN := n, polls := 0, rxdata := 0, raw := 0,
      valid := false, done := false, busy := true, lt := [] }

/-- Rule R120: an EXCH that finds the block not busy is accepted, and writes what the pseudocode lists and nothing else;
RESULT and the sticky bits keep their values. So does every CTRL word with OP 1 and N at most 2. -/
def Obligations.ExchIsAcceptedWhenNotBusy : Prop :=
  ∀ (s : State) (cmd : Byte), s.busy = false →
    exec (.exchN0 cmd) s = .next (acceptedExch cmd 0 s) ∧
    exec (.exchN1 cmd) s = .next (acceptedExch cmd 1 s) ∧
    exec (.exchN2 cmd) s = .next (acceptedExch cmd 2 s) ∧
    ∀ w : Word, w.toNat % 16 = 1 → w.toNat / 2 ^ 16 % 4 ≠ 3 →
      exec (.wrCtrl w) s = .next (acceptedExch (BitVec.ofNat 8 (w.toNat / 2 ^ 8)) (BitVec.ofNat 2 (w.toNat / 2 ^ 16)) s)

/-- Rules R148 to R151: each command starts the exchange of its byte and payload count, or sets OVR while BUSY = 1 (R120,
R202), and the wire byte of rule R88 decodes to it. The codes and counts are PRESUMED (log entry 7); that the row starts
the exchange is DEDUCED (log entry 8). -/
def Obligations.CommandsStartTheirExchange : Prop :=
  (decode [0x03] = .ok .wireMeasureTemperature ∧ decode [0x05] = .ok .wireMeasureRelativeHumidity ∧
   decode [0x07] = .ok .wireReadStatusRegister ∧ decode [0x1E] = .ok .wireSoftReset) ∧
  ∀ s : State,
    (s.busy = false →
      exec .wireMeasureTemperature s = .next (acceptedExch 0x03 2 s) ∧
      exec .wireMeasureRelativeHumidity s = .next (acceptedExch 0x05 2 s) ∧
      exec .wireReadStatusRegister s = .next (acceptedExch 0x07 1 s) ∧
      exec .wireSoftReset s = .next (acceptedExch 0x1E 0 s)) ∧
    (s.busy = true →
      exec .wireMeasureTemperature s = .next { s with ovr := true } ∧
      exec .wireMeasureRelativeHumidity s = .next { s with ovr := true } ∧
      exec .wireReadStatusRegister s = .next { s with ovr := true } ∧
      exec .wireSoftReset s = .next { s with ovr := true })

/-- Rule R224, CTRL words: one write sets at most one sticky bit, and an illegal word never sets OVR. -/
def Obligations.OneWriteSetsAtMostOneStickyBit : Prop :=
  ∀ (w : Word) (s t : State), exec (.wrCtrl w) s = .next t → s.ovr = false → s.ill = false →
    ¬ (t.ovr = true ∧ t.ill = true) ∧
    ((7 ≤ w.toNat % 16 ∨ (w.toNat % 16 = 1 ∧ w.toNat / 2 ^ 16 % 4 = 3)) → t.ovr = false ∧ t.ill = true)

/-- Rules R144, R205: while BUSY = 1 no host instruction touches the exchange: the engine, its results, POLLS, the mirrors
and the trace stay as they are. -/
def Obligations.NoInstructionDisturbsARunningExchange : Prop :=
  ∀ (i : Instr) (s : State), s.busy = true → ∃ t, exec i s = .next t ∧
    t.eng = s.eng ∧ t.busy = true ∧ t.done = s.done ∧ t.valid = s.valid ∧ t.result = s.result ∧
    t.rxdata = s.rxdata ∧ t.raw = s.raw ∧ t.polls = s.polls ∧ t.lastCmd = s.lastCmd ∧ t.lastN = s.lastN ∧
    t.pins = s.pins ∧ t.lt = s.lt

/-- Rules R34 to R37: only CRC_CLR and CRC_ADD write ACC, only CONV_T and a TEMP write write TEMP, only CONV_RHL writes
RL_E10, only CONV_RHT writes RT_E10; each also as the CTRL word that selects it, and no engine step writes any. -/
def Obligations.OnlyTheirOperationsWriteTheUnits : Prop :=
  (∀ (i : Instr) (s t : State), exec i s = .next t →
    (t.crcAcc ≠ s.crcAcc → i = .crcClr ∨ (∃ b, i = .crcAdd b) ∨
      ∃ w, i = .wrCtrl w ∧ (decodeCtrl w = .crcClr ∨ ∃ b, decodeCtrl w = .crcAdd b)) ∧
    (t.temp ≠ s.temp → (∃ v, i = .wrTemp v) ∨ (∃ x, i = .convT x) ∨ ∃ w, i = .wrCtrl w ∧ ∃ x, decodeCtrl w = .convT x) ∧
    (t.rhl ≠ s.rhl → (∃ x, i = .convRhl x) ∨ ∃ w, i = .wrCtrl w ∧ ∃ x, decodeCtrl w = .convRhl x) ∧
    (t.rht ≠ s.rht → (∃ x, i = .convRht x) ∨ ∃ w, i = .wrCtrl w ∧ ∃ x, decodeCtrl w = .convRht x)) ∧
  ∀ (r : EnvReply) (s t : State), engineStep r s = .next t →
    t.crcAcc = s.crcAcc ∧ t.temp = s.temp ∧ t.rhl = s.rhl ∧ t.rht = s.rht ∧ t.ovr = s.ovr ∧ t.ill = s.ill

/-! ## The CRC unit -/

/-- Rules R104, R105: CRC_CLR and CRC_ADD, and every CTRL word with their OP, write ACC as they say and nothing else, busy
or not. The table is the parameter `CRC_TABLE`, whatever its entries. -/
def Obligations.CrcOperationsWriteTheAccumulator : Prop :=
  ∀ (s : State) (b : Byte) (w : Word),
    exec .crcClr s = .next { s with crcAcc := 0x00 } ∧
    exec (.crcAdd b) s = .next { s with crcAcc := crcTable.getD (s.crcAcc ^^^ b).toNat 0 } ∧
    (w.toNat % 16 = 2 → exec (.wrCtrl w) s = .next { s with crcAcc := 0x00 }) ∧
    (w.toNat % 16 = 3 → exec (.wrCtrl w) s =
      .next { s with crcAcc := crcTable.getD (s.crcAcc ^^^ BitVec.ofNat 8 (w.toNat / 2 ^ 8)).toNat 0 })

/-- Rule R100: bit i of `rev8(b)` is bit 7 − i of b, `rev8` undoes itself, and the rule's examples; and `rev8` distributes
over xor, which the rule marks as the spec's own derivation ("derived: from the definition"). -/
def Obligations.BitReversal : Prop :=
  (∀ (b : Byte) (i : Nat), i < 8 → (rev8 b).getLsbD i = b.getLsbD (7 - i)) ∧
  (∀ b : Byte, rev8 (rev8 b) = b) ∧
  (∀ a b : Byte, rev8 (a ^^^ b) = rev8 a ^^^ rev8 b) ∧
  rev8 0x00 = 0x00 ∧ rev8 0xFF = 0xFF ∧
  rev8 0x01 = 0x80 ∧ rev8 0xF5 = 0xAF ∧ rev8 0x0F = 0xF0 ∧ rev8 0xA5 = 0xA5

/-- Rule R101: the table has 256 entries and each is its generator's. The table is PRESUMED (log entry 6). -/
def Obligations.CrcTableIsItsGenerators : Prop :=
  crcTable.length = 256 ∧ ∀ b : Byte, crcTable[b.toNat]? = some (crcGenerate b)

/-- Rule R103, the spec's own derivation: the table is linear over xor, a sequence of zero bytes has CRC 0, folding a
concatenation folds its parts, and order matters. Rests on the table, PRESUMED (log entry 6). -/
def Obligations.CrcLaws : Prop :=
  (∀ a b : Byte, crcEntry (a ^^^ b) = crcEntry a ^^^ crcEntry b) ∧
  (∀ n : Nat, crc (List.replicate n 0) = 0) ∧
  (∀ (a : Byte) (bs cs : List Byte), crcFold a (bs ++ cs) = crcFold (crcFold a bs) cs) ∧
  crc [0x01, 0x02] = 0x96 ∧ crc [0x02, 0x01] = 0xE8

/-- A host that clears the accumulator and injects bytes one by one holds their CRC (R102, R108). -/
def Obligations.HostCrcOfASequence : Prop :=
  ∀ (bs : List Byte) (s : State),
    bs.foldl (fun o b => match o with
      | .next t => exec (.crcAdd b) t
      | o       => o) (exec .crcClr s) = .next { s with crcAcc := crcFold 0 bs }

/-! ## The converter -/

/-- Rule R182: CONV_T, and every CTRL word with OP 4 and that ARG16, writes `x − 3960` and nothing else. That 17 bits hold it
for every x, and its range, the rule marks as the spec's own derivation ("derived: from rule R181"). -/
def Obligations.ConvTWritesTheTemperature : Prop :=
  ∀ (x : BitVec 16) (s : State), ∃ t, exec (.convT x) s = .next t ∧ t = { s with temp := t.temp } ∧
    t.temp.toInt = (x.toNat : Int) - 3960 ∧ -3960 ≤ t.temp.toInt ∧ t.temp.toInt ≤ 61575 ∧
    ∀ w : Word, w.toNat % 16 = 4 → w.toNat / 2 ^ 16 = x.toNat → exec (.wrCtrl w) s = .next t

/-- Rule R183: CONV_RHL, and every CTRL word with OP 5 and that ARG16, writes RL and nothing else; RHL_LO and RHL_HI
read its two words. That 48 bits hold RL for every x, and its range, the rule marks as the spec's own derivation
("derived: from rule R181, by evaluating every x"). -/
def Obligations.ConvRhlWritesTheLinearHumidity : Prop :=
  ∀ (x : BitVec 16) (s : State), ∃ t, exec (.convRhl x) s = .next t ∧ t = { s with rhl := t.rhl } ∧
    t.rhl.toInt = -20468000000 + 367000000 * (x.toNat : Int) - 15955 * (x.toNat : Int) * (x.toNat : Int) ∧
    -44493234969875 ≤ t.rhl.toInt ∧ t.rhl.toInt ≤ 2089983269045 ∧
    regValue t .rhlLo = BitVec.ofInt 32 t.rhl.toInt ∧ regValue t .rhlHi = BitVec.ofInt 32 (t.rhl.toInt / 2 ^ 32) ∧
    ∀ w : Word, w.toNat % 16 = 5 → w.toNat / 2 ^ 16 = x.toNat → exec (.wrCtrl w) s = .next t

/-- Rule R184: CONV_RHT, and every CTRL word with OP 6 and that ARG16, writes RT from TEMP and x and nothing
else. That 48 bits hold RT for every 17-bit TEMP and every x, and both ranges, the rule marks as the spec's own derivation
("derived: from rule R181; RT is linear in T, so its extremes over T lie at the ends of T's range"). -/
def Obligations.ConvRhtWritesTheTrueHumidity : Prop :=
  ∀ (x : BitVec 16) (s : State), ∃ t, exec (.convRht x) s = .next t ∧ t = { s with rht := t.rht } ∧
    t.rht.toInt = 1000 * (s.temp.toInt - 2500) * (1000 + 8 * (x.toNat : Int)) +
      (-20468000000 + 367000000 * (x.toNat : Int) - 15955 * (x.toNat : Int) * (x.toNat : Int)) ∧
    -80231185049875 ≤ t.rht.toInt ∧ t.rht.toInt ≤ 11937409342720 ∧
    (-3960 ≤ s.temp.toInt → s.temp.toInt ≤ 61575 → -47886543769875 ≤ t.rht.toInt ∧ t.rht.toInt ≤ 11084175156480) ∧
    regValue t .rhtLo = BitVec.ofInt 32 t.rht.toInt ∧ regValue t .rhtHi = BitVec.ofInt 32 (t.rht.toInt / 2 ^ 32) ∧
    ∀ w : Word, w.toNat % 16 = 6 → w.toNat / 2 ^ 16 = x.toNat → exec (.wrCtrl w) s = .next t

/-- Rule R181: each scaled integer is exactly its scale times the source's formula over the rationals, with the
coefficients of rule R180 (log entry 18). That the integers equal the scaled values the rule marks as the spec's own
derivation ("derived: from the coefficients of rule R180"). -/
def Obligations.ScaledIntegersAreExact : Prop :=
  ∀ (x : BitVec 16) (t : Int),
    (tC100 x : ℚ) = 100 * (-3960 / 100 + 1 / 100 * (x.toNat : ℚ)) ∧
    (rlE10 x : ℚ) = 10 ^ 10 * (-20468 / 10 ^ 4 + 367 / 10 ^ 4 * (x.toNat : ℚ) + -15955 / 10 ^ 10 * (x.toNat : ℚ) ^ 2) ∧
    (rtE10 t x : ℚ) = 10 ^ 10 * (((t : ℚ) / 100 - 25) * (1 / 100 + 8 / 10 ^ 5 * (x.toNat : ℚ)) +
      (-20468 / 10 ^ 4 + 367 / 10 ^ 4 * (x.toNat : ℚ) + -15955 / 10 ^ 10 * (x.toNat : ℚ) ^ 2)) ∧
    tC100 x = (x.toNat : Int) - 3960 ∧
    rlE10 x = -20468000000 + 367000000 * (x.toNat : Int) - 15955 * (x.toNat : Int) ^ 2 ∧
    rtE10 t x = 1000 * (t - 2500) * (1000 + 8 * (x.toNat : Int)) + rlE10 x

/-- Rule R185, laws 2 to 5, the spec's own derivation: how the three results grow with their operands. -/
def Obligations.ConverterLaws : Prop :=
  (∀ x y : BitVec 16, y.toNat = x.toNat + 1 →
    tC100 y = tC100 x + 1 ∧
    (y.toNat ≤ 11501 → rlE10 x < rlE10 y) ∧
    (11502 ≤ x.toNat → rlE10 y < rlE10 x)) ∧
  (∀ x : BitVec 16, rtE10 2500 x = rlE10 x) ∧
  (∀ (t : Int) (x : BitVec 16), rtE10 (t + 1) x - rtE10 t x = 1000 * (1000 + 8 * (x.toNat : Int)))

/-- Rules R205, R182 to R184: the host's CRC, converter and NOP operations commute with an engine step, whatever the
environment presents: the engine does not see them, and they do not see it. -/
def Obligations.UnitsAndEngineDoNotInterfere : Prop :=
  ∀ (i : Instr) (r : EnvReply) (s t u : State),
    (i = .nop ∨ i = .crcClr ∨ (∃ b, i = .crcAdd b) ∨ (∃ x, i = .convT x) ∨ (∃ x, i = .convRhl x) ∨ (∃ x, i = .convRht x) ∨
      ∃ v, i = .wrTemp v) →
    exec i s = .next t → engineStep r s = .next u →
    ∃ w, engineStep r t = .next w ∧ exec i u = .next w

/-! ## The phases of an exchange -/

/-- Rule R123: SETUP issues its four operations in order; answered Ok they end in START, with both lines Out, SCK Low and
DATA High. Nothing else changes. -/
def Obligations.SetupPhase : Prop :=
  ∀ (s : State) (a b c d : Level), CountsLegal s.eng → s.eng.phase = .setup → s.eng.step = 0 →
    engineRun [.done a, .done b, .done c, .done d] s = .next { s with
      lt := s.lt ++ [.op (.dir .sck .output) .ok, .op (.dir .data .output) .ok,
                     .op (.set .sck .low) .ok, .op (.set .data .high) .ok],
      pins := { s.pins with sckDir := .output, dataDir := .output, sckLvl := .low, dataLvl := .high },
      eng := { s.eng with phase := .start, step := 0 } }

/-- Rule R124: START issues its seven operations in order; answered Ok they end in CMD at bit 7, with both lines Low. -/
def Obligations.StartPhase : Prop :=
  ∀ (s : State) (a b c d e f g : Level), CountsLegal s.eng → s.eng.phase = .start → s.eng.step = 0 →
    engineRun [.done a, .done b, .done c, .done d, .done e, .done f, .done g] s = .next { s with
      lt := s.lt ++ [.op (.set .sck .high) .ok, .op (.set .data .low) .ok, .op (.set .sck .low) .ok,
                     .op (.set .sck .high) .ok, .op (.set .data .high) .ok, .op (.set .sck .low) .ok,
                     .op (.set .data .low) .ok],
      pins := { s.pins with sckLvl := .low, dataLvl := .low },
      eng := { s.eng with phase := .cmd, bit := 7, step := 0 } }

/-- Rule R125: one command bit is driven (High when set) and clocked; then the next lower bit, or ACKREL after bit 0. -/
def Obligations.CommandBit : Prop :=
  ∀ (s : State) (a b c : Level), CountsLegal s.eng → s.eng.phase = .cmd → s.eng.step = 0 →
    engineRun [.done a, .done b, .done c] s = .next { s with
      lt := s.lt ++ [.op (.set .data (if s.eng.cmd.getLsbD s.eng.bit.toNat then .high else .low)) .ok,
                     .op (.set .sck .high) .ok, .op (.set .sck .low) .ok],
      pins := { s.pins with dataLvl := if s.eng.cmd.getLsbD s.eng.bit.toNat then .high else .low, sckLvl := .low },
      eng := if s.eng.bit = 0 then { s.eng with phase := .ackrel, step := 0 }
             else { s.eng with bit := s.eng.bit - 1, step := 0 } }

/-- Rules R126, R127, R128: ACKREL releases DATA and pulses the clock, samples nothing, and leads to WAIT when a response
is expected and to FINAL when none is. (`E.STEP` on entering WAIT is DEDUCED, log entry 10, and left open here.) -/
def Obligations.AcknowledgmentRelease : Prop :=
  ∀ (s : State) (a b c : Level), CountsLegal s.eng → s.eng.phase = .ackrel → s.eng.step = 0 →
    ∃ k, engineRun [.done a, .done b, .done c] s = .next { s with
      lt := s.lt ++ [.op (.dir .data .input) .ok, .op (.set .sck .high) .ok, .op (.set .sck .low) .ok],
      pins := { s.pins with dataDir := .input, sckLvl := .low },
      eng := if s.eng.n = 0 then { s.eng with phase := .final, step := 0 }
             else { s.eng with phase := .wait, step := k } }

/-- Rule R129: the WAIT step appends `Delay(T_CONV)`, issues no line operation, leads to POLL and cannot fail. -/
def Obligations.WaitPhase : Prop :=
  ∀ (s : State) (r : EnvReply), CountsLegal s.eng → s.eng.phase = .wait →
    engineStep r s = .next { s with lt := s.lt ++ [.delay], eng := { s.eng with phase := .poll } }

/-- Rules R130, R131: a poll answered with a level is counted, saturating; Low leads to the first byte, High to another
poll or, at the bound, to TIMEOUT; `IoErr` ends the exchange and is not counted. -/
def Obligations.PollPhase : Prop :=
  ∀ s : State, CountsLegal s.eng → s.eng.phase = .poll →
    ∃ p : Word, p.toNat = min (s.polls.toNat + 1) 0xFFFFFFFF ∧
    engineStep (.done .low) s = .next { s with
      lt := s.lt ++ [.op (.get .data) (.lvl .low)], pins := { s.pins with dataIn := .low }, polls := p,
      eng := { s.eng with phase := .shiftin, byte := 0, bit := 7, sr := 0, step := 0 } } ∧
    ((∀ n, s.pollLimit = some n → p.toNat < n.val.toNat) →
      engineStep (.done .high) s = .next { s with
        lt := s.lt ++ [.op (.get .data) (.lvl .high)], pins := { s.pins with dataIn := .high }, polls := p }) ∧
    (∀ n, s.pollLimit = some n → n.val.toNat ≤ p.toNat →
      engineStep (.done .high) s = .next { s with
        lt := s.lt ++ [.op (.get .data) (.lvl .high)], pins := { s.pins with dataIn := .high }, polls := p,
        result := .timeout, valid := false, done := true, busy := false,
        eng := { s.eng with phase := .idle, step := 0 } }) ∧
    engineStep .ioErr s = .next { s with
      lt := s.lt ++ [.op (.get .data) .ioErr],
      result := .ioError, valid := false, done := true, busy := false,
      eng := { s.eng with phase := .idle, step := 0 } }

/-- Rule R132: one bit of a byte is clocked and sampled, High as 1, into the low end of `E.SR`; after bit 0 the byte is
stored in `E.BUF[E.BYTE]` and RXACK follows. -/
def Obligations.ShiftInBit : Prop :=
  ∀ (s : State) (a v c : Level), CountsLegal s.eng → s.eng.phase = .shiftin → s.eng.step = 0 →
    ∃ sr : Byte, sr.toNat = (2 * s.eng.sr.toNat + (if v = .high then 1 else 0)) % 256 ∧
    engineRun [.done a, .done v, .done c] s = .next { s with
      lt := s.lt ++ [.op (.set .sck .high) .ok, .op (.get .data) (.lvl v), .op (.set .sck .low) .ok],
      pins := { s.pins with dataIn := v, sckLvl := .low },
      eng := if s.eng.bit = 0 then
               { s.eng with
                   phase := .rxack, step := 0, sr := sr,
                   buf0 := if s.eng.byte = 0 then sr else s.eng.buf0,
                   buf1 := if s.eng.byte = 1 then sr else s.eng.buf1,
                   buf2 := if s.eng.byte = 2 then sr else s.eng.buf2 }
             else { s.eng with bit := s.eng.bit - 1, step := 0, sr := sr } }

/-- Rules R133, R134, R145: every received byte is acknowledged, the checksum byte included; the next byte follows while
`E.BYTE < E.N`, FINAL after byte N. -/
def Obligations.ByteAcknowledgment : Prop :=
  ∀ (s : State) (a b c d e : Level), CountsLegal s.eng → s.eng.phase = .rxack → s.eng.step = 0 →
    engineRun [.done a, .done b, .done c, .done d, .done e] s = .next { s with
      lt := s.lt ++ [.op (.dir .data .output) .ok, .op (.set .data .low) .ok, .op (.set .sck .high) .ok,
                     .op (.set .sck .low) .ok, .op (.dir .data .input) .ok],
      pins := { s.pins with dataDir := .input, dataLvl := .low, sckLvl := .low },
      eng := if s.eng.byte = s.eng.n then { s.eng with phase := .final, step := 0 }
             else { s.eng with phase := .shiftin, byte := s.eng.byte + 1, bit := 7, sr := 0, step := 0 } }

/-- Rules R135, R137 to R140: FINAL leaves DATA Out and High, then publishes the verdict: the CRC over the command byte
and the payload bytes, reversed, against the checksum byte; with N = 0 SUCCESS and no bytes. -/
def Obligations.FinalPhase : Prop :=
  ∀ (s : State) (a b : Level), s.eng.phase = .final → s.eng.step = 0 → s.eng.byte ≤ s.eng.n →
    (s.eng.n = 0 →
      engineRun [.done a, .done b] s = .next { s with
        lt := s.lt ++ [.op (.dir .data .output) .ok, .op (.set .data .high) .ok],
        pins := { s.pins with dataDir := .output, dataLvl := .high },
        result := .success, valid := false, done := true, busy := false,
        eng := { s.eng with phase := .idle, step := 0, crc := crc [s.eng.cmd] } }) ∧
    (s.eng.n = 1 →
      engineRun [.done a, .done b] s = .next { s with
        lt := s.lt ++ [.op (.dir .data .output) .ok, .op (.set .data .high) .ok],
        pins := { s.pins with dataDir := .output, dataLvl := .high },
        result := if rev8 (crc [s.eng.cmd, s.eng.buf0]) = s.eng.buf1 then .success else .checksumMismatch,
        rxdata := rev8 (crc [s.eng.cmd, s.eng.buf0]) ++ s.eng.buf1 ++ 0x00#8 ++ s.eng.buf0,
        raw := 0x00#8 ++ s.eng.buf0,
        valid := true, done := true, busy := false,
        eng := { s.eng with phase := .idle, step := 0, crc := crc [s.eng.cmd, s.eng.buf0] } }) ∧
    (s.eng.n = 2 →
      engineRun [.done a, .done b] s = .next { s with
        lt := s.lt ++ [.op (.dir .data .output) .ok, .op (.set .data .high) .ok],
        pins := { s.pins with dataDir := .output, dataLvl := .high },
        result := if rev8 (crc [s.eng.cmd, s.eng.buf0, s.eng.buf1]) = s.eng.buf2 then .success else .checksumMismatch,
        rxdata := rev8 (crc [s.eng.cmd, s.eng.buf0, s.eng.buf1]) ++ s.eng.buf2 ++ s.eng.buf1 ++ s.eng.buf0,
        raw := s.eng.buf0 ++ s.eng.buf1,
        valid := true, done := true, busy := false,
        eng := { s.eng with phase := .idle, step := 0, crc := crc [s.eng.cmd, s.eng.buf0, s.eng.buf1] } })

/-- Rule R122: an `IoErr` in any phase ends the exchange in that step with IO_ERROR: the operation is in the trace, no
mirror moves, no byte is published. -/
def Obligations.IoErrEndsTheExchange : Prop :=
  ∀ (s : State) (o : LineOp), engineAct s.eng = some (.line o) →
    engineStep .ioErr s = .next { s with
      lt := s.lt ++ [.op o .ioErr],
      result := .ioError, valid := false, done := true, busy := false,
      eng := { s.eng with phase := .idle, step := 0 } }

/-- Rules R121, R64, R128: one engine step appends exactly one event; it is a line operation except in WAIT; the only line
sampled is DATA, and only in POLL and SHIFTIN. The mirrors move only for an operation that did not fail (R66). -/
def Obligations.OneLineOperationPerStep : Prop :=
  ∀ (r : EnvReply) (s t : State), engineStep r s = .next t →
    ∃ ev, (t.lt = s.lt ++ [ev]) ∧ (ev = .delay ↔ s.eng.phase = .wait) ∧
      (∀ a, ev ≠ .op (.get .sck) a) ∧
      (∀ a, ev = .op (.get .data) a → s.eng.phase = .poll ∨ s.eng.phase = .shiftin) ∧
      (∀ o, ev = .op o .ioErr → t.pins = s.pins)

/-! ## Invariants -/

/-- The invariants of rule R45, which the spec marks as its own derivation, hold after reset. -/
def Obligations.BlockInvAtReset : Prop := BlockInv State.reset

/-- Every step, whatever its input, keeps the invariants of rule R45, which the spec marks as its own derivation. -/
def Obligations.BlockInvIsKept : Prop :=
  ∀ s t : State, BlockInv s → step s = .next t → BlockInv t

/-- The engine's counters are legal after reset. -/
def Obligations.SequenceInvAtReset : Prop := SequenceInv State.reset

/-- Where the engine's counters are ones the phase rules speak of, no step faults, and every step keeps them so (R40,
R121). The fault is the model's (log entry 9). -/
def Obligations.NoReachableStepFaults : Prop :=
  ∀ s : State, SequenceInv s → NoFault s ∧ ∀ t, step s = .next t → SequenceInv t

/-- Every step keeps the mirrors' directions those the phase rules set (R143, the spec's own derivation). -/
def Obligations.DirectionInvIsKept : Prop :=
  ∀ s t : State, DirectionInv s → step s = .next t → DirectionInv t

/-- Rule R143, the spec's own derivation: where the mirrors show what the phase rules set, the operation the engine issues
next meets the GpioLine contract, in every exchange. -/
def Obligations.EngineMeetsTheGpioContract : Prop :=
  DirectionInv State.reset ∧
  ∀ (s : State) (o : LineOp), DirectionInv s → engineAct s.eng = some (.line o) → contractHolds s.pins o

/-- Rules R33, R131: POLLS never exceeds the bound: so it is after reset, whatever the bound, and no step changes that or
the bound. -/
def Obligations.PollInvIsKept : Prop :=
  (PollInv State.reset ∧ ∀ s : State, PollInv (resetBlock s)) ∧
  ∀ s t : State, PollInv s → step s = .next t → PollInv t ∧ t.pollLimit = s.pollLimit

/-- Rule R256: while an exchange runs RXDATA and RAW read 0, VALID and DONE are 0 and RESULT keeps the previous exchange's
code, after every step. -/
def Obligations.ResultsAreQuietWhileBusy : Prop :=
  ∀ s t : State, BlockInv s → QuietInv s → step s = .next t → QuietInv t ∧ (t.busy = true → t.result = s.result)

/-! ## Whole exchanges -/

/-- Rules R141 and R136, the spec's own derivations, and R137 to R140: an accepted exchange that meets no IoErr and no
timeout, its polls High k − 1 times and then Low, its response bytes r. Whatever the environment presents to make those
answers, the engine's run issues exactly `trace(cmd, N, k, r)` and ends with the verdict, the bytes, the polls and the lines
the rules give. That every operation is answered is log entry 13 (DEDUCED). -/
def Obligations.CompleteExchange : Prop :=
  ∀ (s : State) (cmd : Byte) (k : Nat) (r : List Byte) (replies : List EnvReply),
    1 ≤ k → (∀ n, s.pollLimit = some n → k ≤ n.val.toNat) →
    (r.length = 0 ∨ r.length = 2 ∨ r.length = 3) →
    List.Forall₂ presents (exchangeTrace cmd k r) replies →
    ∃ t, engineRun replies (acceptedExch cmd (BitVec.ofNat 2 (r.length - 1)) s) = .next t ∧
      t.lt = exchangeTrace cmd k r ∧
      t.busy = false ∧ t.done = true ∧ t.eng.phase = .idle ∧
      t.lastCmd = cmd ∧ t.lastN = BitVec.ofNat 2 (r.length - 1) ∧
      t.pins.sckDir = .output ∧ t.pins.sckLvl = .low ∧ t.pins.dataDir = .output ∧ t.pins.dataLvl = .high ∧
      t.ovr = s.ovr ∧ t.ill = s.ill ∧ t.crcAcc = s.crcAcc ∧ t.temp = s.temp ∧ t.rhl = s.rhl ∧ t.rht = s.rht ∧
      (r = [] → t.result = .success ∧ t.valid = false ∧ t.rxdata = 0 ∧ t.raw = 0 ∧ t.polls = 0) ∧
      (∀ r0 r1, r = [r0, r1] →
        t.result = (if rev8 (crc [cmd, r0]) = r1 then .success else .checksumMismatch) ∧ t.valid = true ∧
        t.rxdata = rev8 (crc [cmd, r0]) ++ r1 ++ 0x00#8 ++ r0 ∧ t.raw = 0x00#8 ++ r0 ∧
        t.polls.toNat = min k 0xFFFFFFFF) ∧
      (∀ r0 r1 r2, r = [r0, r1, r2] →
        t.result = (if rev8 (crc [cmd, r0, r1]) = r2 then .success else .checksumMismatch) ∧ t.valid = true ∧
        t.rxdata = rev8 (crc [cmd, r0, r1]) ++ r2 ++ r1 ++ r0 ∧ t.raw = r0 ++ r1 ∧
        t.polls.toNat = min k 0xFFFFFFFF)

/-- Rule R142, the spec's own derivation: the counts of an exchange that meets no IoErr and no timeout, taken on the trace
the engine's run leaves and on the number of engine steps it takes: line operations, engine steps, `Set(SCK, High)` pulses,
`Get(DATA)`. The steps are the exchange's: after fewer of them it still runs. That each is answered is log entry 13 (DEDUCED). -/
def Obligations.ExchangeCounts : Prop :=
  ∀ (s : State) (cmd : Byte) (k : Nat) (r : List Byte) (replies : List EnvReply),
    1 ≤ k → (∀ n, s.pollLimit = some n → k ≤ n.val.toNat) →
    (r.length = 0 ∨ r.length = 2 ∨ r.length = 3) →
    List.Forall₂ presents (exchangeTrace cmd k r) replies →
    ∃ t, engineRun replies (acceptedExch cmd (BitVec.ofNat 2 (r.length - 1)) s) = .next t ∧ t.busy = false ∧
      (∀ m, m < replies.length →
        ∃ u, engineRun (replies.take m) (acceptedExch cmd (BitVec.ofNat 2 (r.length - 1)) s) = .next u ∧ u.busy = true) ∧
      t.lt.length = replies.length ∧
      (r.length = 0 → t.lt.countP isLineOp = 40 ∧ replies.length = 40 ∧
        t.lt.countP isPulse = 11 ∧ t.lt.countP isSample = 0) ∧
      (r.length = 2 → t.lt.countP isLineOp = 98 + k ∧ replies.length = 99 + k ∧
        t.lt.countP isPulse = 29 ∧ t.lt.countP isSample = k + 16) ∧
      (r.length = 3 → t.lt.countP isLineOp = 127 + k ∧ replies.length = 128 + k ∧
        t.lt.countP isPulse = 38 ∧ t.lt.countP isSample = k + 24)

/-- Rules R131, R142: with `POLL_LIMIT = some n` an accepted exchange is over after 128 + n engine steps, whatever the
environment answers: it cannot hang. That it always answers is log entry 13 (DEDUCED); that steps left over after the end change
nothing is the model's choice, log entry 3. -/
def Obligations.BoundedExchangesEnd : Prop :=
  ∀ (s : State) (cmd : Byte) (m : BitVec 2) (n : PollBound) (replies : List EnvReply),
    m ≤ 2 → s.pollLimit = some n → replies.length = 128 + n.val.toNat →
    ∃ t, engineRun replies (acceptedExch cmd m s) = .next t ∧
      t.eng.phase = .idle ∧ t.busy = false ∧ t.done = true ∧
      (t.result = .success ∨ t.result = .checksumMismatch ∨ t.result = .ioError ∨ t.result = .timeout)

/-- Rules R131, R257: with `POLL_LIMIT = none` a data line that never reads Low keeps the engine in POLL: however many
polls, only POLLS, the trace and DATA_IN have moved, and everything else, BUSY included, is as before. -/
def Obligations.UnboundedPollHangs : Prop :=
  ∀ (s : State) (k : Nat), CountsLegal s.eng → s.eng.phase = .poll → s.pollLimit = none →
    ∃ p : Word, p.toNat = min (s.polls.toNat + k) 0xFFFFFFFF ∧
      engineRun (List.replicate k (.done .high)) s = .next { s with
        polls := p,
        lt := s.lt ++ List.replicate k (.op (.get .data) (.lvl .high)),
        pins := { s.pins with dataIn := if k = 0 then s.pins.dataIn else .high } }

/-- The model's wait loop `waitDone`, rule R206's `waitdone` with exactly one engine step between two reads and nothing else
between them (the model's choice, log entry 20): what it returns is a STATUS word with BUSY = 0, and, from a state in which
an exchange runs, DONE = 1 and the result code of the state it leaves. -/
def Obligations.WaitDoneReturnsTheResult : Prop :=
  ∀ (s t : State) (replies : List EnvReply) (w : Word), BlockInv s → waitDone replies s = some (w, t) →
    w.getLsbD 0 = false ∧ t.busy = false ∧ w = statusWord t ∧ BlockInv t ∧
    (s.busy = true → w.getLsbD 1 = true ∧ t.done = true)

/-! ## Reset -/

/-- Rule R250: reset puts every element of the block's state in the reset state and changes no parameter. In the reset
state every register reads 0, the engine is IDLE with every element 0, and the trace is empty. -/
def Obligations.ResetState : Prop :=
  (∀ s : State, ∃ t, takeInput .reset s = .next t ∧ SameBlock t State.reset ∧ t.pollLimit = s.pollLimit) ∧
  (∀ r : Reg, regValue State.reset r = 0) ∧
  State.reset.busy = false ∧ State.reset.done = false ∧ State.reset.valid = false ∧ State.reset.ovr = false ∧
  State.reset.ill = false ∧ State.reset.result = .none ∧ State.reset.crcAcc = 0 ∧ State.reset.temp = 0 ∧
  State.reset.rhl = 0 ∧ State.reset.rht = 0 ∧ State.reset.lastCmd = 0 ∧ State.reset.lastN = 0 ∧ State.reset.lt = [] ∧
  State.reset.eng = { phase := .idle, step := 0, bit := 0, byte := 0, cmd := 0, n := 0, sr := 0,
                      buf0 := 0, buf1 := 0, buf2 := 0, crc := 0 }

/-- Rules R250, R251, R6: reset may come in any state, an exchange running or not; the block's whole state is then the
reset state and the parameter is what it was. The inputs to come and what the host has read are the model's (log entries
1, 4) and stay. -/
def Obligations.ResetAtAnyTime : Prop :=
  ∀ (s : State) (rest : List Input), s.inputs = .reset :: rest →
    ∃ t, step s = .next t ∧ SameBlock t State.reset ∧
      t.pollLimit = s.pollLimit ∧ t.inputs = rest ∧ t.reads = s.reads
end

