-- ==== Sys2Proof/Laws/Decode.lean ====
section
/-! SUPPORT. Small lemmas about the fields of words: byte lanes (`20_memory.md` rule R70), the fields of a CTRL word
(`30_encoding.md` rule R80) and the poll count (`10_state.md` rule R33). -/

namespace Sys2Proof

/-- The lanes of a word make the word (R70). -/
theorem ofLanes_lanes (v : Word) :
    ofLanes (v.extractLsb' 0 8) (v.extractLsb' 8 8) (v.extractLsb' 16 8) (v.extractLsb' 24 8) = v := by
  unfold ofLanes
  apply BitVec.eq_of_getLsbD_eq
  intro i hi
  simp only [BitVec.getLsbD_append, BitVec.getLsbD_extractLsb']
  obtain h | ⟨h, h'⟩ | ⟨h, h'⟩ | h : i < 8 ∨ (8 ≤ i ∧ i < 16) ∨ (16 ≤ i ∧ i < 24) ∨ 24 ≤ i := by omega
  · simp [h]
  · simp [show ¬ i < 8 by omega, show i - 8 < 8 by omega, show 8 + (i - 8) = i by omega]
  · simp [show ¬ i < 8 by omega, show ¬ i - 8 < 8 by omega, show i - 8 - 8 < 8 by omega,
      show 16 + (i - 8 - 8) = i by omega]
  · simp [show ¬ i < 8 by omega, show ¬ i - 8 < 8 by omega, show ¬ i - 8 - 8 < 8 by omega,
      show i - 8 - 8 - 8 < 8 by omega, show 24 + (i - 8 - 8 - 8) = i by omega]

theorem ctrlOp_toNat (w : Word) : (ctrlOp w).toNat = w.toNat % 16 := by simp [ctrlOp]

theorem ctrlN_toNat (w : Word) : (ctrlN w).toNat = w.toNat / 2 ^ 16 % 4 := by
  simp [ctrlN, Nat.shiftRight_eq_div_pow]

theorem ctrlArg8_eq (w : Word) : ctrlArg8 w = BitVec.ofNat 8 (w.toNat / 2 ^ 8) := by
  apply BitVec.eq_of_toNat_eq
  simp [ctrlArg8, Nat.shiftRight_eq_div_pow]

theorem ctrlArg16_eq (w : Word) : ctrlArg16 w = BitVec.ofNat 16 (w.toNat / 2 ^ 16) := by
  apply BitVec.eq_of_toNat_eq
  simp [ctrlArg16, Nat.shiftRight_eq_div_pow]

namespace Machine

/-- A poll count as a number: one more, saturating (R33). -/
theorem countPoll_toNat (p : Word) : (countPoll p).toNat = min (p.toNat + 1) 0xFFFFFFFF := by
  unfold countPoll
  split
  · next h => subst h; decide
  · next h =>
    have : p.toNat ≠ 0xFFFFFFFF := fun e => h (by apply BitVec.eq_of_toNat_eq; simpa using e)
    have := p.isLt
    rw [BitVec.toNat_add]
    simp
    omega

end Machine

end Sys2Proof
end

