-- ==== Sys2Proof/Laws/State.lean ====
section
/-! SUPPORT. One lemma per field per update of `State`, each true by `rfl`, so that no later proof unfolds a record update. -/

namespace Sys2Proof.Machine

/-! `setIll` -/

@[simp] theorem setIll_busy (s : State) : (setIll s).busy = s.busy := rfl
@[simp] theorem setIll_done (s : State) : (setIll s).done = s.done := rfl
@[simp] theorem setIll_valid (s : State) : (setIll s).valid = s.valid := rfl
@[simp] theorem setIll_ovr (s : State) : (setIll s).ovr = s.ovr := rfl
@[simp] theorem setIll_ill (s : State) : (setIll s).ill = true := rfl
@[simp] theorem setIll_result (s : State) : (setIll s).result = s.result := rfl
@[simp] theorem setIll_rxdata (s : State) : (setIll s).rxdata = s.rxdata := rfl
@[simp] theorem setIll_raw (s : State) : (setIll s).raw = s.raw := rfl
@[simp] theorem setIll_polls (s : State) : (setIll s).polls = s.polls := rfl
@[simp] theorem setIll_crcAcc (s : State) : (setIll s).crcAcc = s.crcAcc := rfl
@[simp] theorem setIll_temp (s : State) : (setIll s).temp = s.temp := rfl
@[simp] theorem setIll_rhl (s : State) : (setIll s).rhl = s.rhl := rfl
@[simp] theorem setIll_rht (s : State) : (setIll s).rht = s.rht := rfl
@[simp] theorem setIll_lastCmd (s : State) : (setIll s).lastCmd = s.lastCmd := rfl
@[simp] theorem setIll_lastN (s : State) : (setIll s).lastN = s.lastN := rfl
@[simp] theorem setIll_pins (s : State) : (setIll s).pins = s.pins := rfl
@[simp] theorem setIll_eng (s : State) : (setIll s).eng = s.eng := rfl
@[simp] theorem setIll_lt (s : State) : (setIll s).lt = s.lt := rfl
@[simp] theorem setIll_pollLimit (s : State) : (setIll s).pollLimit = s.pollLimit := rfl
@[simp] theorem setIll_reads (s : State) : (setIll s).reads = s.reads := rfl
@[simp] theorem setIll_inputs (s : State) : (setIll s).inputs = s.inputs := rfl
@[simp] theorem setIll_drawn (s : State) : (setIll s).drawn = s.drawn := rfl

/-! `setOvr` -/

@[simp] theorem setOvr_busy (s : State) : (setOvr s).busy = s.busy := rfl
@[simp] theorem setOvr_done (s : State) : (setOvr s).done = s.done := rfl
@[simp] theorem setOvr_valid (s : State) : (setOvr s).valid = s.valid := rfl
@[simp] theorem setOvr_ovr (s : State) : (setOvr s).ovr = true := rfl
@[simp] theorem setOvr_ill (s : State) : (setOvr s).ill = s.ill := rfl
@[simp] theorem setOvr_result (s : State) : (setOvr s).result = s.result := rfl
@[simp] theorem setOvr_rxdata (s : State) : (setOvr s).rxdata = s.rxdata := rfl
@[simp] theorem setOvr_raw (s : State) : (setOvr s).raw = s.raw := rfl
@[simp] theorem setOvr_polls (s : State) : (setOvr s).polls = s.polls := rfl
@[simp] theorem setOvr_crcAcc (s : State) : (setOvr s).crcAcc = s.crcAcc := rfl
@[simp] theorem setOvr_temp (s : State) : (setOvr s).temp = s.temp := rfl
@[simp] theorem setOvr_rhl (s : State) : (setOvr s).rhl = s.rhl := rfl
@[simp] theorem setOvr_rht (s : State) : (setOvr s).rht = s.rht := rfl
@[simp] theorem setOvr_lastCmd (s : State) : (setOvr s).lastCmd = s.lastCmd := rfl
@[simp] theorem setOvr_lastN (s : State) : (setOvr s).lastN = s.lastN := rfl
@[simp] theorem setOvr_pins (s : State) : (setOvr s).pins = s.pins := rfl
@[simp] theorem setOvr_eng (s : State) : (setOvr s).eng = s.eng := rfl
@[simp] theorem setOvr_lt (s : State) : (setOvr s).lt = s.lt := rfl
@[simp] theorem setOvr_pollLimit (s : State) : (setOvr s).pollLimit = s.pollLimit := rfl
@[simp] theorem setOvr_reads (s : State) : (setOvr s).reads = s.reads := rfl
@[simp] theorem setOvr_inputs (s : State) : (setOvr s).inputs = s.inputs := rfl
@[simp] theorem setOvr_drawn (s : State) : (setOvr s).drawn = s.drawn := rfl

/-! `clearSticky` -/

@[simp] theorem clearSticky_busy (s : State) : (clearSticky s).busy = s.busy := rfl
@[simp] theorem clearSticky_done (s : State) : (clearSticky s).done = s.done := rfl
@[simp] theorem clearSticky_valid (s : State) : (clearSticky s).valid = s.valid := rfl
@[simp] theorem clearSticky_ovr (s : State) : (clearSticky s).ovr = false := rfl
@[simp] theorem clearSticky_ill (s : State) : (clearSticky s).ill = false := rfl
@[simp] theorem clearSticky_result (s : State) : (clearSticky s).result = s.result := rfl
@[simp] theorem clearSticky_rxdata (s : State) : (clearSticky s).rxdata = s.rxdata := rfl
@[simp] theorem clearSticky_raw (s : State) : (clearSticky s).raw = s.raw := rfl
@[simp] theorem clearSticky_polls (s : State) : (clearSticky s).polls = s.polls := rfl
@[simp] theorem clearSticky_crcAcc (s : State) : (clearSticky s).crcAcc = s.crcAcc := rfl
@[simp] theorem clearSticky_temp (s : State) : (clearSticky s).temp = s.temp := rfl
@[simp] theorem clearSticky_rhl (s : State) : (clearSticky s).rhl = s.rhl := rfl
@[simp] theorem clearSticky_rht (s : State) : (clearSticky s).rht = s.rht := rfl
@[simp] theorem clearSticky_lastCmd (s : State) : (clearSticky s).lastCmd = s.lastCmd := rfl
@[simp] theorem clearSticky_lastN (s : State) : (clearSticky s).lastN = s.lastN := rfl
@[simp] theorem clearSticky_pins (s : State) : (clearSticky s).pins = s.pins := rfl
@[simp] theorem clearSticky_eng (s : State) : (clearSticky s).eng = s.eng := rfl
@[simp] theorem clearSticky_lt (s : State) : (clearSticky s).lt = s.lt := rfl
@[simp] theorem clearSticky_pollLimit (s : State) : (clearSticky s).pollLimit = s.pollLimit := rfl
@[simp] theorem clearSticky_reads (s : State) : (clearSticky s).reads = s.reads := rfl
@[simp] theorem clearSticky_inputs (s : State) : (clearSticky s).inputs = s.inputs := rfl
@[simp] theorem clearSticky_drawn (s : State) : (clearSticky s).drawn = s.drawn := rfl

/-! `hostRead` -/

@[simp] theorem hostRead_busy (r : Reg) (s : State) : (hostRead r s).busy = s.busy := rfl
@[simp] theorem hostRead_done (r : Reg) (s : State) : (hostRead r s).done = s.done := rfl
@[simp] theorem hostRead_valid (r : Reg) (s : State) : (hostRead r s).valid = s.valid := rfl
@[simp] theorem hostRead_ovr (r : Reg) (s : State) : (hostRead r s).ovr = s.ovr := rfl
@[simp] theorem hostRead_ill (r : Reg) (s : State) : (hostRead r s).ill = s.ill := rfl
@[simp] theorem hostRead_result (r : Reg) (s : State) : (hostRead r s).result = s.result := rfl
@[simp] theorem hostRead_rxdata (r : Reg) (s : State) : (hostRead r s).rxdata = s.rxdata := rfl
@[simp] theorem hostRead_raw (r : Reg) (s : State) : (hostRead r s).raw = s.raw := rfl
@[simp] theorem hostRead_polls (r : Reg) (s : State) : (hostRead r s).polls = s.polls := rfl
@[simp] theorem hostRead_crcAcc (r : Reg) (s : State) : (hostRead r s).crcAcc = s.crcAcc := rfl
@[simp] theorem hostRead_temp (r : Reg) (s : State) : (hostRead r s).temp = s.temp := rfl
@[simp] theorem hostRead_rhl (r : Reg) (s : State) : (hostRead r s).rhl = s.rhl := rfl
@[simp] theorem hostRead_rht (r : Reg) (s : State) : (hostRead r s).rht = s.rht := rfl
@[simp] theorem hostRead_lastCmd (r : Reg) (s : State) : (hostRead r s).lastCmd = s.lastCmd := rfl
@[simp] theorem hostRead_lastN (r : Reg) (s : State) : (hostRead r s).lastN = s.lastN := rfl
@[simp] theorem hostRead_pins (r : Reg) (s : State) : (hostRead r s).pins = s.pins := rfl
@[simp] theorem hostRead_eng (r : Reg) (s : State) : (hostRead r s).eng = s.eng := rfl
@[simp] theorem hostRead_lt (r : Reg) (s : State) : (hostRead r s).lt = s.lt := rfl
@[simp] theorem hostRead_pollLimit (r : Reg) (s : State) : (hostRead r s).pollLimit = s.pollLimit := rfl
@[simp] theorem hostRead_reads (r : Reg) (s : State) : (hostRead r s).reads = s.reads ++ [regValue s r] := rfl
@[simp] theorem hostRead_inputs (r : Reg) (s : State) : (hostRead r s).inputs = s.inputs := rfl
@[simp] theorem hostRead_drawn (r : Reg) (s : State) : (hostRead r s).drawn = s.drawn := rfl

/-! `acceptExchange` -/

@[simp] theorem acceptExchange_busy (cmd : Byte) (n : BitVec 2) (s : State) : (acceptExchange cmd n s).busy = true := rfl
@[simp] theorem acceptExchange_done (cmd : Byte) (n : BitVec 2) (s : State) : (acceptExchange cmd n s).done = false := rfl
@[simp] theorem acceptExchange_valid (cmd : Byte) (n : BitVec 2) (s : State) : (acceptExchange cmd n s).valid = false := rfl
@[simp] theorem acceptExchange_ovr (cmd : Byte) (n : BitVec 2) (s : State) : (acceptExchange cmd n s).ovr = s.ovr := rfl
@[simp] theorem acceptExchange_ill (cmd : Byte) (n : BitVec 2) (s : State) : (acceptExchange cmd n s).ill = s.ill := rfl
@[simp] theorem acceptExchange_result (cmd : Byte) (n : BitVec 2) (s : State) : (acceptExchange cmd n s).result = s.result := rfl
@[simp] theorem acceptExchange_rxdata (cmd : Byte) (n : BitVec 2) (s : State) : (acceptExchange cmd n s).rxdata = 0 := rfl
@[simp] theorem acceptExchange_raw (cmd : Byte) (n : BitVec 2) (s : State) : (acceptExchange cmd n s).raw = 0 := rfl
@[simp] theorem acceptExchange_polls (cmd : Byte) (n : BitVec 2) (s : State) : (acceptExchange cmd n s).polls = 0 := rfl
@[simp] theorem acceptExchange_crcAcc (cmd : Byte) (n : BitVec 2) (s : State) : (acceptExchange cmd n s).crcAcc = s.crcAcc := rfl
@[simp] theorem acceptExchange_temp (cmd : Byte) (n : BitVec 2) (s : State) : (acceptExchange cmd n s).temp = s.temp := rfl
@[simp] theorem acceptExchange_rhl (cmd : Byte) (n : BitVec 2) (s : State) : (acceptExchange cmd n s).rhl = s.rhl := rfl
@[simp] theorem acceptExchange_rht (cmd : Byte) (n : BitVec 2) (s : State) : (acceptExchange cmd n s).rht = s.rht := rfl
@[simp] theorem acceptExchange_lastCmd (cmd : Byte) (n : BitVec 2) (s : State) : (acceptExchange cmd n s).lastCmd = cmd := rfl
@[simp] theorem acceptExchange_lastN (cmd : Byte) (n : BitVec 2) (s : State) : (acceptExchange cmd n s).lastN = n := rfl
@[simp] theorem acceptExchange_pins (cmd : Byte) (n : BitVec 2) (s : State) : (acceptExchange cmd n s).pins = s.pins := rfl
@[simp] theorem acceptExchange_eng (cmd : Byte) (n : BitVec 2) (s : State) : (acceptExchange cmd n s).eng = freshEngine cmd n := rfl
@[simp] theorem acceptExchange_lt (cmd : Byte) (n : BitVec 2) (s : State) : (acceptExchange cmd n s).lt = [] := rfl
@[simp] theorem acceptExchange_pollLimit (cmd : Byte) (n : BitVec 2) (s : State) : (acceptExchange cmd n s).pollLimit = s.pollLimit := rfl
@[simp] theorem acceptExchange_reads (cmd : Byte) (n : BitVec 2) (s : State) : (acceptExchange cmd n s).reads = s.reads := rfl
@[simp] theorem acceptExchange_inputs (cmd : Byte) (n : BitVec 2) (s : State) : (acceptExchange cmd n s).inputs = s.inputs := rfl
@[simp] theorem acceptExchange_drawn (cmd : Byte) (n : BitVec 2) (s : State) : (acceptExchange cmd n s).drawn = s.drawn := rfl

/-! `finish` -/

@[simp] theorem finish_busy (res : Result) (s : State) : (finish res s).busy = false := rfl
@[simp] theorem finish_done (res : Result) (s : State) : (finish res s).done = true := rfl
@[simp] theorem finish_valid (res : Result) (s : State) : (finish res s).valid = publishes res s.eng.n := rfl
@[simp] theorem finish_ovr (res : Result) (s : State) : (finish res s).ovr = s.ovr := rfl
@[simp] theorem finish_ill (res : Result) (s : State) : (finish res s).ill = s.ill := rfl
@[simp] theorem finish_result (res : Result) (s : State) : (finish res s).result = res := rfl
@[simp] theorem finish_rxdata (res : Result) (s : State) : (finish res s).rxdata = if publishes res s.eng.n then rxdataWord s.eng else s.rxdata := rfl
@[simp] theorem finish_raw (res : Result) (s : State) : (finish res s).raw = if publishes res s.eng.n then rawWord s.eng else s.raw := rfl
@[simp] theorem finish_polls (res : Result) (s : State) : (finish res s).polls = s.polls := rfl
@[simp] theorem finish_crcAcc (res : Result) (s : State) : (finish res s).crcAcc = s.crcAcc := rfl
@[simp] theorem finish_temp (res : Result) (s : State) : (finish res s).temp = s.temp := rfl
@[simp] theorem finish_rhl (res : Result) (s : State) : (finish res s).rhl = s.rhl := rfl
@[simp] theorem finish_rht (res : Result) (s : State) : (finish res s).rht = s.rht := rfl
@[simp] theorem finish_lastCmd (res : Result) (s : State) : (finish res s).lastCmd = s.lastCmd := rfl
@[simp] theorem finish_lastN (res : Result) (s : State) : (finish res s).lastN = s.lastN := rfl
@[simp] theorem finish_pins (res : Result) (s : State) : (finish res s).pins = s.pins := rfl
@[simp] theorem finish_eng (res : Result) (s : State) : (finish res s).eng = { s.eng with phase := .idle, step := 0 } := rfl
@[simp] theorem finish_lt (res : Result) (s : State) : (finish res s).lt = s.lt := rfl
@[simp] theorem finish_pollLimit (res : Result) (s : State) : (finish res s).pollLimit = s.pollLimit := rfl
@[simp] theorem finish_reads (res : Result) (s : State) : (finish res s).reads = s.reads := rfl
@[simp] theorem finish_inputs (res : Result) (s : State) : (finish res s).inputs = s.inputs := rfl
@[simp] theorem finish_drawn (res : Result) (s : State) : (finish res s).drawn = s.drawn := rfl

/-! `observe` -/

@[simp] theorem observe_busy (o : LineOp) (a : Answer) (s : State) : (observe o a s).busy = s.busy := rfl
@[simp] theorem observe_done (o : LineOp) (a : Answer) (s : State) : (observe o a s).done = s.done := rfl
@[simp] theorem observe_valid (o : LineOp) (a : Answer) (s : State) : (observe o a s).valid = s.valid := rfl
@[simp] theorem observe_ovr (o : LineOp) (a : Answer) (s : State) : (observe o a s).ovr = s.ovr := rfl
@[simp] theorem observe_ill (o : LineOp) (a : Answer) (s : State) : (observe o a s).ill = s.ill := rfl
@[simp] theorem observe_result (o : LineOp) (a : Answer) (s : State) : (observe o a s).result = s.result := rfl
@[simp] theorem observe_rxdata (o : LineOp) (a : Answer) (s : State) : (observe o a s).rxdata = s.rxdata := rfl
@[simp] theorem observe_raw (o : LineOp) (a : Answer) (s : State) : (observe o a s).raw = s.raw := rfl
@[simp] theorem observe_polls (o : LineOp) (a : Answer) (s : State) : (observe o a s).polls = s.polls := rfl
@[simp] theorem observe_crcAcc (o : LineOp) (a : Answer) (s : State) : (observe o a s).crcAcc = s.crcAcc := rfl
@[simp] theorem observe_temp (o : LineOp) (a : Answer) (s : State) : (observe o a s).temp = s.temp := rfl
@[simp] theorem observe_rhl (o : LineOp) (a : Answer) (s : State) : (observe o a s).rhl = s.rhl := rfl
@[simp] theorem observe_rht (o : LineOp) (a : Answer) (s : State) : (observe o a s).rht = s.rht := rfl
@[simp] theorem observe_lastCmd (o : LineOp) (a : Answer) (s : State) : (observe o a s).lastCmd = s.lastCmd := rfl
@[simp] theorem observe_lastN (o : LineOp) (a : Answer) (s : State) : (observe o a s).lastN = s.lastN := rfl
@[simp] theorem observe_pins (o : LineOp) (a : Answer) (s : State) : (observe o a s).pins = mirror o a s.pins := rfl
@[simp] theorem observe_eng (o : LineOp) (a : Answer) (s : State) : (observe o a s).eng = s.eng := rfl
@[simp] theorem observe_lt (o : LineOp) (a : Answer) (s : State) : (observe o a s).lt = s.lt ++ [.op o a] := rfl
@[simp] theorem observe_pollLimit (o : LineOp) (a : Answer) (s : State) : (observe o a s).pollLimit = s.pollLimit := rfl
@[simp] theorem observe_reads (o : LineOp) (a : Answer) (s : State) : (observe o a s).reads = s.reads := rfl
@[simp] theorem observe_inputs (o : LineOp) (a : Answer) (s : State) : (observe o a s).inputs = s.inputs := rfl
@[simp] theorem observe_drawn (o : LineOp) (a : Answer) (s : State) : (observe o a s).drawn = s.drawn := rfl

/-! `waitStep` -/

@[simp] theorem waitStep_busy (s : State) : (waitStep s).busy = s.busy := rfl
@[simp] theorem waitStep_done (s : State) : (waitStep s).done = s.done := rfl
@[simp] theorem waitStep_valid (s : State) : (waitStep s).valid = s.valid := rfl
@[simp] theorem waitStep_ovr (s : State) : (waitStep s).ovr = s.ovr := rfl
@[simp] theorem waitStep_ill (s : State) : (waitStep s).ill = s.ill := rfl
@[simp] theorem waitStep_result (s : State) : (waitStep s).result = s.result := rfl
@[simp] theorem waitStep_rxdata (s : State) : (waitStep s).rxdata = s.rxdata := rfl
@[simp] theorem waitStep_raw (s : State) : (waitStep s).raw = s.raw := rfl
@[simp] theorem waitStep_polls (s : State) : (waitStep s).polls = s.polls := rfl
@[simp] theorem waitStep_crcAcc (s : State) : (waitStep s).crcAcc = s.crcAcc := rfl
@[simp] theorem waitStep_temp (s : State) : (waitStep s).temp = s.temp := rfl
@[simp] theorem waitStep_rhl (s : State) : (waitStep s).rhl = s.rhl := rfl
@[simp] theorem waitStep_rht (s : State) : (waitStep s).rht = s.rht := rfl
@[simp] theorem waitStep_lastCmd (s : State) : (waitStep s).lastCmd = s.lastCmd := rfl
@[simp] theorem waitStep_lastN (s : State) : (waitStep s).lastN = s.lastN := rfl
@[simp] theorem waitStep_pins (s : State) : (waitStep s).pins = s.pins := rfl
@[simp] theorem waitStep_eng (s : State) : (waitStep s).eng = { s.eng with phase := .poll } := rfl
@[simp] theorem waitStep_lt (s : State) : (waitStep s).lt = s.lt ++ [.delay] := rfl
@[simp] theorem waitStep_pollLimit (s : State) : (waitStep s).pollLimit = s.pollLimit := rfl
@[simp] theorem waitStep_reads (s : State) : (waitStep s).reads = s.reads := rfl
@[simp] theorem waitStep_inputs (s : State) : (waitStep s).inputs = s.inputs := rfl
@[simp] theorem waitStep_drawn (s : State) : (waitStep s).drawn = s.drawn := rfl

/-! `nextStep` -/

@[simp] theorem nextStep_busy (s : State) : (nextStep s).busy = s.busy := rfl
@[simp] theorem nextStep_done (s : State) : (nextStep s).done = s.done := rfl
@[simp] theorem nextStep_valid (s : State) : (nextStep s).valid = s.valid := rfl
@[simp] theorem nextStep_ovr (s : State) : (nextStep s).ovr = s.ovr := rfl
@[simp] theorem nextStep_ill (s : State) : (nextStep s).ill = s.ill := rfl
@[simp] theorem nextStep_result (s : State) : (nextStep s).result = s.result := rfl
@[simp] theorem nextStep_rxdata (s : State) : (nextStep s).rxdata = s.rxdata := rfl
@[simp] theorem nextStep_raw (s : State) : (nextStep s).raw = s.raw := rfl
@[simp] theorem nextStep_polls (s : State) : (nextStep s).polls = s.polls := rfl
@[simp] theorem nextStep_crcAcc (s : State) : (nextStep s).crcAcc = s.crcAcc := rfl
@[simp] theorem nextStep_temp (s : State) : (nextStep s).temp = s.temp := rfl
@[simp] theorem nextStep_rhl (s : State) : (nextStep s).rhl = s.rhl := rfl
@[simp] theorem nextStep_rht (s : State) : (nextStep s).rht = s.rht := rfl
@[simp] theorem nextStep_lastCmd (s : State) : (nextStep s).lastCmd = s.lastCmd := rfl
@[simp] theorem nextStep_lastN (s : State) : (nextStep s).lastN = s.lastN := rfl
@[simp] theorem nextStep_pins (s : State) : (nextStep s).pins = s.pins := rfl
@[simp] theorem nextStep_eng (s : State) : (nextStep s).eng = { s.eng with step := s.eng.step + 1 } := rfl
@[simp] theorem nextStep_lt (s : State) : (nextStep s).lt = s.lt := rfl
@[simp] theorem nextStep_pollLimit (s : State) : (nextStep s).pollLimit = s.pollLimit := rfl
@[simp] theorem nextStep_reads (s : State) : (nextStep s).reads = s.reads := rfl
@[simp] theorem nextStep_inputs (s : State) : (nextStep s).inputs = s.inputs := rfl
@[simp] theorem nextStep_drawn (s : State) : (nextStep s).drawn = s.drawn := rfl

/-! `enterPhase` -/

@[simp] theorem enterPhase_busy (p : Phase) (s : State) : (enterPhase p s).busy = s.busy := rfl
@[simp] theorem enterPhase_done (p : Phase) (s : State) : (enterPhase p s).done = s.done := rfl
@[simp] theorem enterPhase_valid (p : Phase) (s : State) : (enterPhase p s).valid = s.valid := rfl
@[simp] theorem enterPhase_ovr (p : Phase) (s : State) : (enterPhase p s).ovr = s.ovr := rfl
@[simp] theorem enterPhase_ill (p : Phase) (s : State) : (enterPhase p s).ill = s.ill := rfl
@[simp] theorem enterPhase_result (p : Phase) (s : State) : (enterPhase p s).result = s.result := rfl
@[simp] theorem enterPhase_rxdata (p : Phase) (s : State) : (enterPhase p s).rxdata = s.rxdata := rfl
@[simp] theorem enterPhase_raw (p : Phase) (s : State) : (enterPhase p s).raw = s.raw := rfl
@[simp] theorem enterPhase_polls (p : Phase) (s : State) : (enterPhase p s).polls = s.polls := rfl
@[simp] theorem enterPhase_crcAcc (p : Phase) (s : State) : (enterPhase p s).crcAcc = s.crcAcc := rfl
@[simp] theorem enterPhase_temp (p : Phase) (s : State) : (enterPhase p s).temp = s.temp := rfl
@[simp] theorem enterPhase_rhl (p : Phase) (s : State) : (enterPhase p s).rhl = s.rhl := rfl
@[simp] theorem enterPhase_rht (p : Phase) (s : State) : (enterPhase p s).rht = s.rht := rfl
@[simp] theorem enterPhase_lastCmd (p : Phase) (s : State) : (enterPhase p s).lastCmd = s.lastCmd := rfl
@[simp] theorem enterPhase_lastN (p : Phase) (s : State) : (enterPhase p s).lastN = s.lastN := rfl
@[simp] theorem enterPhase_pins (p : Phase) (s : State) : (enterPhase p s).pins = s.pins := rfl
@[simp] theorem enterPhase_eng (p : Phase) (s : State) : (enterPhase p s).eng = { s.eng with phase := p, step := 0 } := rfl
@[simp] theorem enterPhase_lt (p : Phase) (s : State) : (enterPhase p s).lt = s.lt := rfl
@[simp] theorem enterPhase_pollLimit (p : Phase) (s : State) : (enterPhase p s).pollLimit = s.pollLimit := rfl
@[simp] theorem enterPhase_reads (p : Phase) (s : State) : (enterPhase p s).reads = s.reads := rfl
@[simp] theorem enterPhase_inputs (p : Phase) (s : State) : (enterPhase p s).inputs = s.inputs := rfl
@[simp] theorem enterPhase_drawn (p : Phase) (s : State) : (enterPhase p s).drawn = s.drawn := rfl

/-! `nextBit` -/

@[simp] theorem nextBit_busy (s : State) : (nextBit s).busy = s.busy := rfl
@[simp] theorem nextBit_done (s : State) : (nextBit s).done = s.done := rfl
@[simp] theorem nextBit_valid (s : State) : (nextBit s).valid = s.valid := rfl
@[simp] theorem nextBit_ovr (s : State) : (nextBit s).ovr = s.ovr := rfl
@[simp] theorem nextBit_ill (s : State) : (nextBit s).ill = s.ill := rfl
@[simp] theorem nextBit_result (s : State) : (nextBit s).result = s.result := rfl
@[simp] theorem nextBit_rxdata (s : State) : (nextBit s).rxdata = s.rxdata := rfl
@[simp] theorem nextBit_raw (s : State) : (nextBit s).raw = s.raw := rfl
@[simp] theorem nextBit_polls (s : State) : (nextBit s).polls = s.polls := rfl
@[simp] theorem nextBit_crcAcc (s : State) : (nextBit s).crcAcc = s.crcAcc := rfl
@[simp] theorem nextBit_temp (s : State) : (nextBit s).temp = s.temp := rfl
@[simp] theorem nextBit_rhl (s : State) : (nextBit s).rhl = s.rhl := rfl
@[simp] theorem nextBit_rht (s : State) : (nextBit s).rht = s.rht := rfl
@[simp] theorem nextBit_lastCmd (s : State) : (nextBit s).lastCmd = s.lastCmd := rfl
@[simp] theorem nextBit_lastN (s : State) : (nextBit s).lastN = s.lastN := rfl
@[simp] theorem nextBit_pins (s : State) : (nextBit s).pins = s.pins := rfl
@[simp] theorem nextBit_eng (s : State) : (nextBit s).eng = { s.eng with bit := s.eng.bit - 1, step := 0 } := rfl
@[simp] theorem nextBit_lt (s : State) : (nextBit s).lt = s.lt := rfl
@[simp] theorem nextBit_pollLimit (s : State) : (nextBit s).pollLimit = s.pollLimit := rfl
@[simp] theorem nextBit_reads (s : State) : (nextBit s).reads = s.reads := rfl
@[simp] theorem nextBit_inputs (s : State) : (nextBit s).inputs = s.inputs := rfl
@[simp] theorem nextBit_drawn (s : State) : (nextBit s).drawn = s.drawn := rfl

/-! `startByte` -/

@[simp] theorem startByte_busy (j : BitVec 2) (s : State) : (startByte j s).busy = s.busy := rfl
@[simp] theorem startByte_done (j : BitVec 2) (s : State) : (startByte j s).done = s.done := rfl
@[simp] theorem startByte_valid (j : BitVec 2) (s : State) : (startByte j s).valid = s.valid := rfl
@[simp] theorem startByte_ovr (j : BitVec 2) (s : State) : (startByte j s).ovr = s.ovr := rfl
@[simp] theorem startByte_ill (j : BitVec 2) (s : State) : (startByte j s).ill = s.ill := rfl
@[simp] theorem startByte_result (j : BitVec 2) (s : State) : (startByte j s).result = s.result := rfl
@[simp] theorem startByte_rxdata (j : BitVec 2) (s : State) : (startByte j s).rxdata = s.rxdata := rfl
@[simp] theorem startByte_raw (j : BitVec 2) (s : State) : (startByte j s).raw = s.raw := rfl
@[simp] theorem startByte_polls (j : BitVec 2) (s : State) : (startByte j s).polls = s.polls := rfl
@[simp] theorem startByte_crcAcc (j : BitVec 2) (s : State) : (startByte j s).crcAcc = s.crcAcc := rfl
@[simp] theorem startByte_temp (j : BitVec 2) (s : State) : (startByte j s).temp = s.temp := rfl
@[simp] theorem startByte_rhl (j : BitVec 2) (s : State) : (startByte j s).rhl = s.rhl := rfl
@[simp] theorem startByte_rht (j : BitVec 2) (s : State) : (startByte j s).rht = s.rht := rfl
@[simp] theorem startByte_lastCmd (j : BitVec 2) (s : State) : (startByte j s).lastCmd = s.lastCmd := rfl
@[simp] theorem startByte_lastN (j : BitVec 2) (s : State) : (startByte j s).lastN = s.lastN := rfl
@[simp] theorem startByte_pins (j : BitVec 2) (s : State) : (startByte j s).pins = s.pins := rfl
@[simp] theorem startByte_eng (j : BitVec 2) (s : State) : (startByte j s).eng = { s.eng with phase := .shiftin, byte := j, bit := 7, sr := 0, step := 0 } := rfl
@[simp] theorem startByte_lt (j : BitVec 2) (s : State) : (startByte j s).lt = s.lt := rfl
@[simp] theorem startByte_pollLimit (j : BitVec 2) (s : State) : (startByte j s).pollLimit = s.pollLimit := rfl
@[simp] theorem startByte_reads (j : BitVec 2) (s : State) : (startByte j s).reads = s.reads := rfl
@[simp] theorem startByte_inputs (j : BitVec 2) (s : State) : (startByte j s).inputs = s.inputs := rfl
@[simp] theorem startByte_drawn (j : BitVec 2) (s : State) : (startByte j s).drawn = s.drawn := rfl

/-! `storeByte` -/

@[simp] theorem storeByte_busy (s : State) : (storeByte s).busy = s.busy := rfl
@[simp] theorem storeByte_done (s : State) : (storeByte s).done = s.done := rfl
@[simp] theorem storeByte_valid (s : State) : (storeByte s).valid = s.valid := rfl
@[simp] theorem storeByte_ovr (s : State) : (storeByte s).ovr = s.ovr := rfl
@[simp] theorem storeByte_ill (s : State) : (storeByte s).ill = s.ill := rfl
@[simp] theorem storeByte_result (s : State) : (storeByte s).result = s.result := rfl
@[simp] theorem storeByte_rxdata (s : State) : (storeByte s).rxdata = s.rxdata := rfl
@[simp] theorem storeByte_raw (s : State) : (storeByte s).raw = s.raw := rfl
@[simp] theorem storeByte_polls (s : State) : (storeByte s).polls = s.polls := rfl
@[simp] theorem storeByte_crcAcc (s : State) : (storeByte s).crcAcc = s.crcAcc := rfl
@[simp] theorem storeByte_temp (s : State) : (storeByte s).temp = s.temp := rfl
@[simp] theorem storeByte_rhl (s : State) : (storeByte s).rhl = s.rhl := rfl
@[simp] theorem storeByte_rht (s : State) : (storeByte s).rht = s.rht := rfl
@[simp] theorem storeByte_lastCmd (s : State) : (storeByte s).lastCmd = s.lastCmd := rfl
@[simp] theorem storeByte_lastN (s : State) : (storeByte s).lastN = s.lastN := rfl
@[simp] theorem storeByte_pins (s : State) : (storeByte s).pins = s.pins := rfl
@[simp] theorem storeByte_eng (s : State) : (storeByte s).eng = { setBuf s.eng s.eng.byte s.eng.sr with phase := .rxack, step := 0 } := rfl
@[simp] theorem storeByte_lt (s : State) : (storeByte s).lt = s.lt := rfl
@[simp] theorem storeByte_pollLimit (s : State) : (storeByte s).pollLimit = s.pollLimit := rfl
@[simp] theorem storeByte_reads (s : State) : (storeByte s).reads = s.reads := rfl
@[simp] theorem storeByte_inputs (s : State) : (storeByte s).inputs = s.inputs := rfl
@[simp] theorem storeByte_drawn (s : State) : (storeByte s).drawn = s.drawn := rfl

/-! `resetBlock` -/

@[simp] theorem resetBlock_busy (s : State) : (resetBlock s).busy = State.reset.busy := rfl
@[simp] theorem resetBlock_done (s : State) : (resetBlock s).done = State.reset.done := rfl
@[simp] theorem resetBlock_valid (s : State) : (resetBlock s).valid = State.reset.valid := rfl
@[simp] theorem resetBlock_ovr (s : State) : (resetBlock s).ovr = State.reset.ovr := rfl
@[simp] theorem resetBlock_ill (s : State) : (resetBlock s).ill = State.reset.ill := rfl
@[simp] theorem resetBlock_result (s : State) : (resetBlock s).result = State.reset.result := rfl
@[simp] theorem resetBlock_rxdata (s : State) : (resetBlock s).rxdata = State.reset.rxdata := rfl
@[simp] theorem resetBlock_raw (s : State) : (resetBlock s).raw = State.reset.raw := rfl
@[simp] theorem resetBlock_polls (s : State) : (resetBlock s).polls = State.reset.polls := rfl
@[simp] theorem resetBlock_crcAcc (s : State) : (resetBlock s).crcAcc = State.reset.crcAcc := rfl
@[simp] theorem resetBlock_temp (s : State) : (resetBlock s).temp = State.reset.temp := rfl
@[simp] theorem resetBlock_rhl (s : State) : (resetBlock s).rhl = State.reset.rhl := rfl
@[simp] theorem resetBlock_rht (s : State) : (resetBlock s).rht = State.reset.rht := rfl
@[simp] theorem resetBlock_lastCmd (s : State) : (resetBlock s).lastCmd = State.reset.lastCmd := rfl
@[simp] theorem resetBlock_lastN (s : State) : (resetBlock s).lastN = State.reset.lastN := rfl
@[simp] theorem resetBlock_pins (s : State) : (resetBlock s).pins = State.reset.pins := rfl
@[simp] theorem resetBlock_eng (s : State) : (resetBlock s).eng = State.reset.eng := rfl
@[simp] theorem resetBlock_lt (s : State) : (resetBlock s).lt = State.reset.lt := rfl
@[simp] theorem resetBlock_pollLimit (s : State) : (resetBlock s).pollLimit = s.pollLimit := rfl
@[simp] theorem resetBlock_reads (s : State) : (resetBlock s).reads = s.reads := rfl
@[simp] theorem resetBlock_inputs (s : State) : (resetBlock s).inputs = s.inputs := rfl
@[simp] theorem resetBlock_drawn (s : State) : (resetBlock s).drawn = s.drawn := rfl

/-! `pushRequest` -/

@[simp] theorem pushRequest_busy (r : HostRequest) (s : State) : (pushRequest r s).busy = s.busy := rfl
@[simp] theorem pushRequest_done (r : HostRequest) (s : State) : (pushRequest r s).done = s.done := rfl
@[simp] theorem pushRequest_valid (r : HostRequest) (s : State) : (pushRequest r s).valid = s.valid := rfl
@[simp] theorem pushRequest_ovr (r : HostRequest) (s : State) : (pushRequest r s).ovr = s.ovr := rfl
@[simp] theorem pushRequest_ill (r : HostRequest) (s : State) : (pushRequest r s).ill = s.ill := rfl
@[simp] theorem pushRequest_result (r : HostRequest) (s : State) : (pushRequest r s).result = s.result := rfl
@[simp] theorem pushRequest_rxdata (r : HostRequest) (s : State) : (pushRequest r s).rxdata = s.rxdata := rfl
@[simp] theorem pushRequest_raw (r : HostRequest) (s : State) : (pushRequest r s).raw = s.raw := rfl
@[simp] theorem pushRequest_polls (r : HostRequest) (s : State) : (pushRequest r s).polls = s.polls := rfl
@[simp] theorem pushRequest_crcAcc (r : HostRequest) (s : State) : (pushRequest r s).crcAcc = s.crcAcc := rfl
@[simp] theorem pushRequest_temp (r : HostRequest) (s : State) : (pushRequest r s).temp = s.temp := rfl
@[simp] theorem pushRequest_rhl (r : HostRequest) (s : State) : (pushRequest r s).rhl = s.rhl := rfl
@[simp] theorem pushRequest_rht (r : HostRequest) (s : State) : (pushRequest r s).rht = s.rht := rfl
@[simp] theorem pushRequest_lastCmd (r : HostRequest) (s : State) : (pushRequest r s).lastCmd = s.lastCmd := rfl
@[simp] theorem pushRequest_lastN (r : HostRequest) (s : State) : (pushRequest r s).lastN = s.lastN := rfl
@[simp] theorem pushRequest_pins (r : HostRequest) (s : State) : (pushRequest r s).pins = s.pins := rfl
@[simp] theorem pushRequest_eng (r : HostRequest) (s : State) : (pushRequest r s).eng = s.eng := rfl
@[simp] theorem pushRequest_lt (r : HostRequest) (s : State) : (pushRequest r s).lt = s.lt := rfl
@[simp] theorem pushRequest_pollLimit (r : HostRequest) (s : State) : (pushRequest r s).pollLimit = s.pollLimit := rfl
@[simp] theorem pushRequest_reads (r : HostRequest) (s : State) : (pushRequest r s).reads = s.reads := rfl
@[simp] theorem pushRequest_inputs (r : HostRequest) (s : State) : (pushRequest r s).inputs = .host r :: s.inputs := rfl
@[simp] theorem pushRequest_drawn (r : HostRequest) (s : State) : (pushRequest r s).drawn = s.drawn := rfl

end Sys2Proof.Machine
end

