-- ==== Sys2Proof/Laws/Engine.lean ====
section
/-! SUPPORT. What the engine's shared operations can do, said once (`41_protocol.md` rules R121 to R140). -/

namespace Sys2Proof.Machine

/-! ## Taking the next input -/

theorem firstInput_cons {s : State} {inp : Input} {rest : List Input} (h : s.inputs = inp :: rest) :
    firstInput s = inp := by simp [firstInput, h]

theorem dropInput_cons {s : State} {inp : Input} {rest : List Input} (h : s.inputs = inp :: rest) :
    dropInput s = { s with inputs := rest } := by simp [dropInput, h]

theorem step_cons {s : State} {inp : Input} {rest : List Input} (h : s.inputs = inp :: rest) :
    step s = takeInput inp { s with inputs := rest } := by
  simp [step, firstInput_cons h, dropInput_cons h]

/-- Taking an input changes only the model's own record of the inputs. -/
theorem dropInput_eq (s : State) : ∃ l d, dropInput s = { s with inputs := l, drawn := d } := by
  unfold dropInput
  split
  · exact ⟨s.inputs, s.drawn + 1, rfl⟩
  · next rest _ => exact ⟨rest, s.drawn, rfl⟩

/-! ## The engine step -/

/-- Where the counters are legal, the engine does what the phase rule names (R121). -/
theorem engineAct_of_legal {e : Engine} (hc : CountsLegal e) : engineAct e = phaseAct e := if_pos hc

theorem engineAct_counts {e : Engine} {a : EngineAct} (h : engineAct e = some a) : CountsLegal e := by
  unfold engineAct at h
  split at h
  · assumption
  · simp at h

theorem phaseAct_idle {e : Engine} (h : e.phase = .idle) : phaseAct e = none := by
  simp [phaseAct, h]

theorem engineAct_idle {e : Engine} (h : e.phase = .idle) : engineAct e = none := by
  simp [engineAct, phaseAct_idle h]

/-- The WAIT phase, and it alone, lets the delay pass (R129). -/
theorem engineAct_delay {e : Engine} (h : engineAct e = some .delay) : e.phase = .wait := by
  rw [engineAct_of_legal (engineAct_counts h)] at h
  unfold phaseAct at h
  cases hp : e.phase <;> simp [hp] at h ⊢

theorem engineAct_wait {e : Engine} (hc : CountsLegal e) (h : e.phase = .wait) : engineAct e = some .delay := by
  rw [engineAct_of_legal hc]
  simp [phaseAct, h]

/-- An engine step that issues an operation (R121). -/
theorem engineStep_line {s : State} {o : LineOp} (r : EnvReply) (hc : CountsLegal s.eng)
    (h : phaseAct s.eng = some (.line o)) : engineStep r s = .next (lineStep o (answerTo o r) s) := by
  simp only [engineStep, engineAct_of_legal hc, h]

/-- The first of a run of engine steps, where it issues an operation (R121). -/
theorem engineRun_line {s : State} {o : LineOp} (r : EnvReply) (rs : List EnvReply) (hc : CountsLegal s.eng)
    (h : phaseAct s.eng = some (.line o)) :
    engineRun (r :: rs) s = engineRun rs (lineStep o (answerTo o r) s) := by
  have hp : s.eng.phase ≠ .idle := fun hi => by rw [phaseAct_idle hi] at h; simp at h
  simp only [engineRun, engineTurn, if_neg hp, engineStep_line r hc h]

/-- The first of a run of engine steps, in WAIT (R129). -/
theorem engineRun_wait {s : State} (r : EnvReply) (rs : List EnvReply) (hc : CountsLegal s.eng)
    (h : s.eng.phase = .wait) : engineRun (r :: rs) s = engineRun rs (waitStep s) := by
  have hp : s.eng.phase ≠ .idle := by simp [h]
  simp only [engineRun, engineTurn, if_neg hp, engineStep, engineAct_wait hc h]

/-- While no exchange runs an engine's turn changes nothing. -/
theorem engineRun_idle (rs : List EnvReply) {s : State} (h : s.eng.phase = .idle) : engineRun rs s = .next s := by
  induction rs with
  | nil => rfl
  | cons r rs ih => simp only [engineRun, engineTurn, if_pos h, ih]

/-- A run of engine steps in two parts. -/
theorem engineRun_append (rs rs' : List EnvReply) (s t : State) (h : engineRun rs s = .next t) :
    engineRun (rs ++ rs') s = engineRun rs' t := by
  induction rs generalizing s with
  | nil => injection h with h; exact h ▸ rfl
  | cons r rs ih =>
    simp only [engineRun, List.cons_append] at h ⊢
    cases hu : engineTurn r s <;> simp only [hu] at h ⊢
    · exact ih _ h
    · cases h
    · cases h

/-- Everything an engine step can do (R121, R122, R129). -/
theorem engineStep_cases {r : EnvReply} {s t : State} (h : engineStep r s = .next t) :
    CountsLegal s.eng ∧
    ((engineAct s.eng = some .delay ∧ s.eng.phase = .wait ∧ t = waitStep s) ∨
     ∃ o, engineAct s.eng = some (.line o) ∧
       ((answerTo o r = .ioErr ∧ t = finish .ioError (observe o .ioErr s)) ∨
        (answerTo o r ≠ .ioErr ∧ t = phaseEffect (answerTo o r) (observe o (answerTo o r) s)))) := by
  unfold engineStep at h
  split at h
  · next o ho =>
    refine ⟨engineAct_counts ho, .inr ⟨o, ho, ?_⟩⟩
    injection h with h
    unfold lineStep at h
    split at h
    · next ha => exact .inl ⟨ha, by rw [← h, ha]⟩
    · next ha => exact .inr ⟨ha, h.symm⟩
  · next hd =>
    injection h with h
    exact ⟨engineAct_counts hd, .inl ⟨hd, engineAct_delay hd, h.symm⟩⟩
  · simp at h

/-- Everything a phase rule's effect can do: the engine's counters move; a poll is counted; the exchange times out; or it
concludes (R123 to R135). -/
theorem phaseEffect_cases (a : Answer) (s : State) (hs : s.eng.phase ≠ .idle) :
    (∃ e, phaseEffect a s = { s with eng := e } ∧ e.cmd = s.eng.cmd ∧ e.n = s.eng.n ∧ e.phase ≠ .idle) ∨
    (s.eng.phase = .poll ∧ phaseEffect a s = { s with polls := countPoll s.polls }) ∨
    (s.eng.phase = .poll ∧ phaseEffect a s = startByte 0 { s with polls := countPoll s.polls }) ∨
    (s.eng.phase = .poll ∧ phaseEffect a s = finish .timeout { s with polls := countPoll s.polls }) ∨
    (s.eng.phase = .final ∧ phaseEffect a s = conclude s) := by
  have buf : ∀ (e : Engine) j b, (setBuf e j b).cmd = e.cmd ∧ (setBuf e j b).n = e.n := by
    intro e j b
    unfold setBuf
    split <;> exact ⟨rfl, rfl⟩
  have step : ∀ u : State, u = nextStep s → ∃ e, u = { s with eng := e } ∧ e.cmd = s.eng.cmd ∧ e.n = s.eng.n ∧
      e.phase ≠ .idle := fun u hu => ⟨_, hu, rfl, rfl, hs⟩
  unfold phaseEffect
  cases hp : s.eng.phase with
  | idle => exact absurd hp hs
  | wait => exact .inl ⟨s.eng, rfl, rfl, rfl, hs⟩
  | setup =>
    left; simp only [afterSetup]; split
    · exact ⟨_, rfl, rfl, rfl, by simp⟩
    · exact step _ rfl
  | start =>
    left; simp only [afterStart]; split
    · exact ⟨_, rfl, rfl, rfl, by simp⟩
    · exact step _ rfl
  | cmd =>
    left; simp only [afterCmd]; split
    · split
      · exact ⟨_, rfl, rfl, rfl, by simp⟩
      · exact ⟨_, rfl, rfl, rfl, by simp [hp]⟩
    · exact step _ rfl
  | ackrel =>
    left; simp only [afterAckrel]; split
    · split
      · exact ⟨_, rfl, rfl, rfl, by simp⟩
      · exact ⟨_, rfl, rfl, rfl, by simp⟩
    · exact step _ rfl
  | shiftin =>
    left; simp only [afterShiftin]; split
    · split
      · exact ⟨_, rfl, (buf _ _ _).1, (buf _ _ _).2, by simp⟩
      · exact ⟨_, rfl, rfl, rfl, by simp [hp]⟩
    · split
      · exact ⟨_, rfl, rfl, rfl, by simp [hp]⟩
      · exact step _ rfl
  | rxack =>
    left; simp only [afterRxack]; split
    · split
      · exact ⟨_, rfl, rfl, rfl, by simp⟩
      · exact ⟨_, rfl, rfl, rfl, by simp⟩
    · exact step _ rfl
  | poll =>
    cases a with
    | ok => exact .inl ⟨s.eng, rfl, rfl, rfl, hs⟩
    | ioErr => exact .inl ⟨s.eng, rfl, rfl, rfl, hs⟩
    | lvl v =>
      right
      cases v with
      | low => exact .inr (.inl ⟨by trivial, rfl⟩)
      | high =>
        simp only [afterPoll, pollHigh]; split
        · exact .inr (.inr (.inl ⟨by trivial, rfl⟩))
        · exact .inl ⟨by trivial, rfl⟩
  | final =>
    simp only [afterFinal]; split
    · exact .inr (.inr (.inr (.inr ⟨by trivial, rfl⟩)))
    · exact .inl (step _ rfl)

/-- What `conclude` writes: the engine's CRC, and `finish` with the verdict on it (R135, R137, R138). -/
theorem conclude_eq (s : State) :
    conclude s = finish (verdict { s.eng with crc := exchangeCrc s.eng })
      { s with eng := { s.eng with crc := exchangeCrc s.eng } } := rfl

/-- A verdict is SUCCESS or CHECKSUM_MISMATCH (R138). -/
theorem verdict_cases (e : Engine) : verdict e = .success ∨ verdict e = .checksumMismatch := by
  unfold verdict
  split
  · exact .inl rfl
  · split
    · exact .inl rfl
    · exact .inr rfl

/-! ## Host operations -/

/-- Everything an EXCH with N ≤ 2 can do (R120, R202). -/
theorem startExchange_cases (cmd : Byte) (n : BitVec 2) (s : State) :
    (s.busy = true ∧ startExchange cmd n s = setOvr s) ∨
    (s.busy = false ∧ startExchange cmd n s = acceptExchange cmd n s) := by
  unfold startExchange
  split
  · next h => exact .inl ⟨h, rfl⟩
  · next h => exact .inr ⟨by simpa using h, rfl⟩

/-- Everything an instruction can do (R200 to R204, R120): it completes, and either starts an exchange while none runs, or
leaves the exchange and its results as they are. -/
theorem exec_cases (i : Instr) (s : State) :
    (∃ cmd n, n ≤ 2 ∧ s.busy = false ∧ exec i s = .next (acceptExchange cmd n s)) ∨
    (∃ ovr ill acc temp rhl rht reads,
      exec i s = .next { s with ovr := ovr, ill := ill, crcAcc := acc, temp := temp, rhl := rhl, rht := rht, reads := reads }) := by
  have ex : ∀ cmd (n : BitVec 2), n ≤ 2 →
      (∃ cmd' n', n' ≤ 2 ∧ s.busy = false ∧ (.next (startExchange cmd n s) : Answered) = .next (acceptExchange cmd' n' s)) ∨
      (∃ ovr ill acc temp rhl rht reads, (.next (startExchange cmd n s) : Answered) =
        .next { s with ovr := ovr, ill := ill, crcAcc := acc, temp := temp, rhl := rhl, rht := rht, reads := reads }) := by
    intro cmd n hn
    obtain ⟨-, h⟩ | ⟨hb, h⟩ := startExchange_cases cmd n s
    · exact .inr ⟨true, s.ill, s.crcAcc, s.temp, s.rhl, s.rht, s.reads, by rw [h]; rfl⟩
    · exact .inl ⟨cmd, n, hn, hb, by rw [h]⟩
  have keep : ∀ {o : Answered} ovr ill acc temp rhl rht reads,
      o = .next { s with ovr := ovr, ill := ill, crcAcc := acc, temp := temp, rhl := rhl, rht := rht, reads := reads } →
      (∃ cmd n, n ≤ 2 ∧ s.busy = false ∧ o = .next (acceptExchange cmd n s)) ∨
      (∃ ovr ill acc temp rhl rht reads,
        o = .next { s with ovr := ovr, ill := ill, crcAcc := acc, temp := temp, rhl := rhl, rht := rht, reads := reads }) :=
    fun ovr ill acc temp rhl rht reads h => .inr ⟨ovr, ill, acc, temp, rhl, rht, reads, h⟩
  cases i with
  | exchN0 cmd => exact ex cmd 0 (by decide)
  | exchN1 cmd => exact ex cmd 1 (by decide)
  | exchN2 cmd => exact ex cmd 2 (by decide)
  | wireMeasureTemperature => exact ex 0x03 2 (by decide)
  | wireMeasureRelativeHumidity => exact ex 0x05 2 (by decide)
  | wireReadStatusRegister => exact ex 0x07 1 (by decide)
  | wireSoftReset => exact ex 0x1E 0 (by decide)
  | wrCtrl v =>
    show _ ∨ (∃ ovr ill acc temp rhl rht reads, performCtrl (decodeCtrl v) s = _)
    rw [show exec (.wrCtrl v) s = performCtrl (decodeCtrl v) s from rfl]
    cases decodeCtrl v with
    | exchN0 cmd => exact ex cmd 0 (by decide)
    | exchN1 cmd => exact ex cmd 1 (by decide)
    | exchN2 cmd => exact ex cmd 2 (by decide)
    | _ => exact keep _ _ _ _ _ _ _ rfl
  | _ => exact keep _ _ _ _ _ _ _ rfl

end Sys2Proof.Machine
end

