-- ==== Sys2Proof/Laws/PerInstr.lean ====
section
/-! SUPPORT. A statement about every instruction as a term: its encoding has the number of bytes its format has
(`30_encoding.md` rules R80, R86, R87, R90). -/

namespace Sys2Proof.Laws.TableLength

/-- How many bytes the format of an instruction has. -/
def formatBytes : Instr → Nat
  | .nop => 4
  | .exchN0 _ => 4
  | .exchN1 _ => 4
  | .exchN2 _ => 4
  | .illExchN3 => 4
  | .crcClr => 4
  | .crcAdd _ => 4
  | .convT _ => 4
  | .convRhl _ => 4
  | .convRht _ => 4
  | .illOp7 => 4
  | .illOp8to15 => 4
  | .wireMeasureTemperature => 1
  | .wireMeasureRelativeHumidity => 1
  | .wireReadStatusRegister => 1
  | .wireSoftReset => 1
  | .rdCtrl => 6
  | .rdStatus => 6
  | .rdRxdata => 6
  | .rdRaw => 6
  | .rdPolls => 6
  | .rdCrc => 6
  | .rdTemp => 6
  | .rdRhlLo => 6
  | .rdRhlHi => 6
  | .rdRhtLo => 6
  | .rdRhtHi => 6
  | .rdLastcmd => 6
  | .rdPins => 6
  | .rdRsvd34 => 6
  | .rdRsvd38 => 6
  | .rdRsvd3C => 6
  | .wrCtrl _ => 6
  | .wrTemp _ => 6
  | .wrRoStatus _ => 6
  | .wrRoRxdata _ => 6
  | .wrRoRaw _ => 6
  | .wrRoPolls _ => 6
  | .wrRoCrc _ => 6
  | .wrRoRhlLo _ => 6
  | .wrRoRhlHi _ => 6
  | .wrRoRhtLo _ => 6
  | .wrRoRhtHi _ => 6
  | .wrRoLastcmd _ => 6
  | .wrRoPins _ => 6
  | .wrRsvd34 _ => 6
  | .wrRsvd38 _ => 6
  | .wrRsvd3C _ => 6

/-- The encoding of an instruction has the bytes of its format (rule R90). -/
def Statement (i : Instr) : Prop := (encode i).length = formatBytes i

theorem nop : Statement .nop := rfl
theorem exchN0 (cmd : Byte) : Statement (.exchN0 cmd) := rfl
theorem exchN1 (cmd : Byte) : Statement (.exchN1 cmd) := rfl
theorem exchN2 (cmd : Byte) : Statement (.exchN2 cmd) := rfl
theorem illExchN3 : Statement .illExchN3 := rfl
theorem crcClr : Statement .crcClr := rfl
theorem crcAdd (b : Byte) : Statement (.crcAdd b) := rfl
theorem convT (x : BitVec 16) : Statement (.convT x) := rfl
theorem convRhl (x : BitVec 16) : Statement (.convRhl x) := rfl
theorem convRht (x : BitVec 16) : Statement (.convRht x) := rfl
theorem illOp7 : Statement .illOp7 := rfl
theorem illOp8to15 : Statement .illOp8to15 := rfl
theorem wireMeasureTemperature : Statement .wireMeasureTemperature := rfl
theorem wireMeasureRelativeHumidity : Statement .wireMeasureRelativeHumidity := rfl
theorem wireReadStatusRegister : Statement .wireReadStatusRegister := rfl
theorem wireSoftReset : Statement .wireSoftReset := rfl
theorem rdCtrl : Statement .rdCtrl := rfl
theorem rdStatus : Statement .rdStatus := rfl
theorem rdRxdata : Statement .rdRxdata := rfl
theorem rdRaw : Statement .rdRaw := rfl
theorem rdPolls : Statement .rdPolls := rfl
theorem rdCrc : Statement .rdCrc := rfl
theorem rdTemp : Statement .rdTemp := rfl
theorem rdRhlLo : Statement .rdRhlLo := rfl
theorem rdRhlHi : Statement .rdRhlHi := rfl
theorem rdRhtLo : Statement .rdRhtLo := rfl
theorem rdRhtHi : Statement .rdRhtHi := rfl
theorem rdLastcmd : Statement .rdLastcmd := rfl
theorem rdPins : Statement .rdPins := rfl
theorem rdRsvd34 : Statement .rdRsvd34 := rfl
theorem rdRsvd38 : Statement .rdRsvd38 := rfl
theorem rdRsvd3C : Statement .rdRsvd3C := rfl
theorem wrCtrl (v : Word) : Statement (.wrCtrl v) := rfl
theorem wrTemp (v : Word) : Statement (.wrTemp v) := rfl
theorem wrRoStatus (v : Word) : Statement (.wrRoStatus v) := rfl
theorem wrRoRxdata (v : Word) : Statement (.wrRoRxdata v) := rfl
theorem wrRoRaw (v : Word) : Statement (.wrRoRaw v) := rfl
theorem wrRoPolls (v : Word) : Statement (.wrRoPolls v) := rfl
theorem wrRoCrc (v : Word) : Statement (.wrRoCrc v) := rfl
theorem wrRoRhlLo (v : Word) : Statement (.wrRoRhlLo v) := rfl
theorem wrRoRhlHi (v : Word) : Statement (.wrRoRhlHi v) := rfl
theorem wrRoRhtLo (v : Word) : Statement (.wrRoRhtLo v) := rfl
theorem wrRoRhtHi (v : Word) : Statement (.wrRoRhtHi v) := rfl
theorem wrRoLastcmd (v : Word) : Statement (.wrRoLastcmd v) := rfl
theorem wrRoPins (v : Word) : Statement (.wrRoPins v) := rfl
theorem wrRsvd34 (v : Word) : Statement (.wrRsvd34 v) := rfl
theorem wrRsvd38 (v : Word) : Statement (.wrRsvd38 v) := rfl
theorem wrRsvd3C (v : Word) : Statement (.wrRsvd3C v) := rfl

end Sys2Proof.Laws.TableLength
end

