-- ==== Sys2Proof/Laws/Step.lean ====
section
/-! SUPPORT. What one step can do to any property of the state, said once, and the small lemmas about the shared
operations that invariants need (`20_memory.md` rule R72, `41_protocol.md` rules R120 to R140). -/

namespace Sys2Proof.Machine

/-- A property of the state is kept by every step if taking an input, every instruction, every engine step and reset keep
it (R72). -/
theorem step_keeps {P : State → Prop}
    (input : ∀ s l d, P s → P { s with inputs := l, drawn := d })
    (instruction : ∀ i s t, P s → exec i s = .next t → P t)
    (engine : ∀ r s t, P s → s.eng.phase ≠ .idle → engineStep r s = .next t → P t)
    (reset : ∀ s, P s → P (resetBlock s))
    {s t : State} (hs : P s) (h : step s = .next t) : P t := by
  obtain ⟨l, d, hd⟩ := dropInput_eq s
  have hp := input s l d hs
  rw [← hd] at hp
  unfold step takeInput at h
  split at h
  · unfold hostTurn at h
    split at h
    · exact instruction _ _ _ hp h
    · simp at h
  · unfold engineTurn at h
    split at h
    · injection h with h; exact h ▸ hp
    · next hi => exact engine _ _ _ hp hi h
  · injection h with h; exact h ▸ reset _ hp

/-- A result publishes bytes exactly when it is a verdict on at least one payload byte (R25, R140). -/
theorem publishes_iff (res : Result) (n : BitVec 2) :
    publishes res n = true ↔ (res = .success ∨ res = .checksumMismatch) ∧ n ≠ 0 := by
  cases res <;> simp [publishes]

theorem two_bits_nonneg : ∀ n : BitVec 2, 0 ≤ n := by decide

theorem two_bits_succ_le : ∀ a b : BitVec 2, a < b → a + 1 ≤ b := by decide

/-- Storing a byte in the buffer changes no counter (R132). -/
theorem setBuf_counters (e : Engine) (j : BitVec 2) (b : Byte) :
    (setBuf e j b).phase = e.phase ∧ (setBuf e j b).n = e.n ∧ (setBuf e j b).byte = e.byte ∧
    (setBuf e j b).cmd = e.cmd ∧ (setBuf e j b).step = e.step ∧ (setBuf e j b).bit = e.bit := by
  unfold setBuf
  split <;> simp

/-- The phase rules keep the engine's counts legal (R40, R134). -/
theorem phaseEffect_counts (a : Answer) (s : State) (h : CountsLegal s.eng) : CountsLegal (phaseEffect a s).eng := by
  unfold phaseEffect
  split
  case h_6 => exact h
  all_goals first
    | (simp only [afterSetup, afterStart, afterCmd, afterAckrel, afterRxack, afterShiftin, afterFinal])
    | skip
  all_goals repeat' split
  all_goals first
    | exact h
    | exact ⟨h.1, two_bits_succ_le _ _ ‹_›⟩
    | exact ⟨by simpa [setBuf_counters] using h.1, by simpa [setBuf_counters] using h.2⟩
    | skip
  case _ v =>
    cases v
    · exact ⟨h.1, two_bits_nonneg _⟩
    · simp only [afterPoll, pollHigh]; split <;> exact h

/-- An engine step leaves the counts legal (R40). -/
theorem engineStep_counts {r : EnvReply} {s t : State} (h : engineStep r s = .next t) : CountsLegal t.eng := by
  obtain ⟨hc, ⟨-, -, rfl⟩ | ⟨o, -, ⟨-, rfl⟩ | ⟨-, rfl⟩⟩⟩ := engineStep_cases h
  · exact hc
  · exact hc
  · exact phaseEffect_counts _ _ hc

end Sys2Proof.Machine
end

