-- ==== Sys2Proof/Tests/Slice0.lean ====
section
/-! SUPPORT. Tests: ill-formed requests, decoding of words written out from the spec, single steps against the vectors of
`95_test_vectors.md`, and for each statement with hypotheses a state that meets them. -/

namespace Sys2Proof.Machine.Tests

open Sys2Proof Sys2Proof.Machine

/-! ## Ill-formed requests (R61, R90) -/

theorem test_access_of_two_bytes_is_ill_formed :
    (BusAccess.mk true 0x18 2 0).wf = false ∧ decodeAccess ⟨true, 0x18, 2, 0⟩ = .rejected (.accessWidth 2) := by decide

theorem test_misaligned_access_is_ill_formed :
    (BusAccess.mk false 0x02 4 0).wf = false ∧ decodeAccess ⟨false, 0x02, 4, 0⟩ = .rejected (.misaligned 0x02) := by decide

theorem test_access_above_window_is_ill_formed :
    (BusAccess.mk false 0x40 4 0).wf = false ∧ decodeAccess ⟨false, 0x40, 4, 0⟩ = .rejected (.outsideWindow 0x40) := by decide

theorem test_access_at_window_end_is_well_formed :
    (BusAccess.mk false 0x3C 4 0).wf = true ∧ decodeAccess ⟨false, 0x3C, 4, 0⟩ = .ok .rdRsvd3C := by decide

theorem test_coded_request_of_three_bytes_is_ill_formed :
    (HostRequest.coded [0, 0, 0]).wf = false ∧ decode [0, 0, 0] = .rejected (.formLength 3) := by decide

theorem test_coded_request_of_no_byte_is_ill_formed :
    (HostRequest.coded []).wf = false ∧ decode [] = .rejected (.formLength 0) := by decide

theorem test_spare_bits_are_refused : decode [0, 0, 0, 0, 0x18, 0x02] = .rejected (.spareBits 0x02) := by decide

theorem test_unnamed_wire_command_is_refused :
    decode [0x06] = .rejected (.unnamedWireCommand 0x06) ∧ decodeTableWord 8 0xE3 = none := by decide

/-! ## Decoding (R80 to R88) -/

/-- The words of rule R85, and one word of each illegal row (R84, R89). -/
theorem test_decode_ctrl :
    decodeTableWord 32 0x00000000 = some .nop ∧
    decodeTableWord 32 0x00001E01 = some (.exchN0 0x1E) ∧
    decodeTableWord 32 0x00010701 = some (.exchN1 0x07) ∧
    decodeTableWord 32 0x00020301 = some (.exchN2 0x03) ∧
    decodeTableWord 32 0x00030301 = some .illExchN3 ∧
    decodeTableWord 32 0x00000002 = some .crcClr ∧
    decodeTableWord 32 0x00000503 = some (.crcAdd 0x05) ∧
    decodeTableWord 32 0x17700004 = some (.convT 6000) ∧
    decodeTableWord 32 0x03E80005 = some (.convRhl 1000) ∧
    decodeTableWord 32 0x03E80006 = some (.convRht 1000) ∧
    decodeTableWord 32 0x00000007 = some .illOp7 ∧
    decodeTableWord 32 0x00000008 = some .illOp8to15 ∧
    decodeTableWord 32 0x00F0000F = some .illOp8to15 := by decide

/-- Every ignored bit of rule R83 set. -/
theorem test_decode_ctrl_ignored_bits :
    decodeTableWord 32 0xFFFFFFF0 = some .nop ∧
    decodeTableWord 32 0xFFFD07F1 = some (.exchN1 0x07) ∧
    decodeTableWord 32 0xFFFFFFF2 = some .crcClr ∧
    decodeTableWord 32 0xFFFF05F3 = some (.crcAdd 0x05) ∧
    decodeTableWord 32 0x1770FFF4 = some (.convT 6000) ∧
    decodeTableWord 32 0x03E8FFF5 = some (.convRhl 1000) ∧
    decodeTableWord 32 0x03E8FFF6 = some (.convRht 1000) ∧
    decodeTableWord 32 0xFFFFFFF7 = some .illOp7 := by decide

/-- The wire bytes of rule R88, as `{0b000, CODE}` (R86). -/
theorem test_decode_wire :
    decodeTableWord 8 0b000_00011 = some .wireMeasureTemperature ∧
    decodeTableWord 8 0b000_00101 = some .wireMeasureRelativeHumidity ∧
    decodeTableWord 8 0b000_00111 = some .wireReadStatusRegister ∧
    decodeTableWord 8 0b000_11110 = some .wireSoftReset := by decide

/-- Rule R87 `{RW, OFF, DATA}` with RW = 0 and the offsets of rule R21. -/
theorem test_decode_reads :
    decodeTableWord 48 0x0_00_00000000 = some .rdCtrl ∧
    decodeTableWord 48 0x0_04_00000000 = some .rdStatus ∧
    decodeTableWord 48 0x0_08_00000000 = some .rdRxdata ∧
    decodeTableWord 48 0x0_0C_00000000 = some .rdRaw ∧
    decodeTableWord 48 0x0_10_00000000 = some .rdPolls ∧
    decodeTableWord 48 0x0_14_00000000 = some .rdCrc ∧
    decodeTableWord 48 0x0_18_00000000 = some .rdTemp ∧
    decodeTableWord 48 0x0_1C_00000000 = some .rdRhlLo ∧
    decodeTableWord 48 0x0_20_00000000 = some .rdRhlHi ∧
    decodeTableWord 48 0x0_24_00000000 = some .rdRhtLo ∧
    decodeTableWord 48 0x0_28_00000000 = some .rdRhtHi ∧
    decodeTableWord 48 0x0_2C_00000000 = some .rdLastcmd ∧
    decodeTableWord 48 0x0_30_00000000 = some .rdPins ∧
    decodeTableWord 48 0x0_34_00000000 = some .rdRsvd34 ∧
    decodeTableWord 48 0x0_38_00000000 = some .rdRsvd38 ∧
    decodeTableWord 48 0x0_3C_00000000 = some .rdRsvd3C := by decide

/-- Rule R87 with RW = 1, one DATA word at every offset of rule R21. -/
theorem test_decode_writes :
    decodeTableWord 48 0x1_00_89ABCDEF = some (.wrCtrl 0x89ABCDEF) ∧
    decodeTableWord 48 0x1_18_89ABCDEF = some (.wrTemp 0x89ABCDEF) ∧
    decodeTableWord 48 0x1_04_89ABCDEF = some (.wrRoStatus 0x89ABCDEF) ∧
    decodeTableWord 48 0x1_08_89ABCDEF = some (.wrRoRxdata 0x89ABCDEF) ∧
    decodeTableWord 48 0x1_0C_89ABCDEF = some (.wrRoRaw 0x89ABCDEF) ∧
    decodeTableWord 48 0x1_10_89ABCDEF = some (.wrRoPolls 0x89ABCDEF) ∧
    decodeTableWord 48 0x1_14_89ABCDEF = some (.wrRoCrc 0x89ABCDEF) ∧
    decodeTableWord 48 0x1_1C_89ABCDEF = some (.wrRoRhlLo 0x89ABCDEF) ∧
    decodeTableWord 48 0x1_20_89ABCDEF = some (.wrRoRhlHi 0x89ABCDEF) ∧
    decodeTableWord 48 0x1_24_89ABCDEF = some (.wrRoRhtLo 0x89ABCDEF) ∧
    decodeTableWord 48 0x1_28_89ABCDEF = some (.wrRoRhtHi 0x89ABCDEF) ∧
    decodeTableWord 48 0x1_2C_89ABCDEF = some (.wrRoLastcmd 0x89ABCDEF) ∧
    decodeTableWord 48 0x1_30_89ABCDEF = some (.wrRoPins 0x89ABCDEF) ∧
    decodeTableWord 48 0x1_34_89ABCDEF = some (.wrRsvd34 0x89ABCDEF) ∧
    decodeTableWord 48 0x1_38_89ABCDEF = some (.wrRsvd38 0x89ABCDEF) ∧
    decodeTableWord 48 0x1_3C_89ABCDEF = some (.wrRsvd3C 0x89ABCDEF) := by decide

/-- A word that is not a palindrome of bytes keeps its lanes through the encoder (R70). -/
theorem test_encode_lanes :
    encode (.wrTemp 0x01020304) = [0x04, 0x03, 0x02, 0x01, 0x18, 0x01] ∧
    encode (.exchN2 0x05) = [0x01, 0x05, 0x02, 0x00] := by decide

/-! ## Helpers -/

/-- The next state an answer gives. -/
def nextOf : Answered → Option State
  | .next t => some t
  | _       => none

/-- The refusal an answer gives. -/
def refusalOf : Answered → Option Refusal
  | .refused f => some f
  | _          => none

/-- The word a register reads after an instruction. -/
def regAfter (i : Instr) (r : Reg) (s : State) : Option Word :=
  match exec i s with
  | .next t => some (regValue t r)
  | _       => none

/-- The value the host's last read returned, after an instruction. -/
def readBy (i : Instr) (s : State) : Option Word :=
  match exec i s with
  | .next t => t.reads.getLast?
  | _       => none

/-- The word a register reads after one engine step. -/
def regAfterEngine (r : EnvReply) (reg : Reg) (s : State) : Option Word :=
  match engineStep r s with
  | .next t => some (regValue t reg)
  | _       => none

/-- A state in which `exch 0x05, 2` runs and stands at a phase, with the counters given. -/
def running (p : Phase) (step bit : BitVec 3) (byte : BitVec 2) : State :=
  { State.reset with
      busy := true, lastCmd := 0x05, lastN := 2,
      pins := { sckDir := .output, sckLvl := .low, dataDir := .input, dataLvl := .high, dataIn := .low },
      eng := { Engine.reset with phase := p, step := step, bit := bit, byte := byte, cmd := 0x05, n := 2 } }

/-- A state in which the response 0x09, 0x31 with checksum byte `c` has been received and FINAL stands at a step. -/
def received (c : Byte) (step : BitVec 3) : State :=
  { running .final step 0 2 with eng := { (running .final step 0 2).eng with buf0 := 0x09, buf1 := 0x31, buf2 := c } }

/-- An idle state that holds values everywhere: the end of V-PE-1, with sticky bits and unit registers set. -/
def used : State :=
  { State.reset with
      done := true, valid := true, ovr := true, ill := true, result := .success,
      rxdata := 0x4F4F7017, raw := 0x1770, polls := 3, crcAcc := 0x58, temp := 2000,
      rhl := BitVec.ofInt 48 (-20468000000), rht := BitVec.ofInt 48 (-26928000000),
      lastCmd := 0x03, lastN := 2,
      pins := { sckDir := .output, sckLvl := .low, dataDir := .output, dataLvl := .high, dataIn := .high },
      eng := { Engine.reset with cmd := 0x03, n := 2, byte := 2, sr := 0x4F, buf0 := 0x17, buf1 := 0x70, buf2 := 0x4F, crc := 0xF2 } }

/-! ## Single steps (vectors of `95_test_vectors.md`) -/

/-- R200's example. -/
theorem test_nop : regAfter .nop .status { State.reset with ovr := true, ill := true, result := .success } = some 0x00000100 := by
  decide

/-- V-CTL-6: the exchange continues. -/
theorem test_nop_while_busy : regAfter .nop .status { running .setup 0 7 0 with ovr := true } = some 0x00010001 := by decide

/-- V-CTL-2, V-CTL-3, V-CTL-4 and R224: ILL only, busy or not. -/
theorem test_illegal_words :
    regAfter .illExchN3 .status State.reset = some 0x00000010 ∧
    regAfter .illOp7 .status State.reset = some 0x00000010 ∧
    regAfter .illOp8to15 .status State.reset = some 0x00000010 ∧
    regAfter .illExchN3 .status (running .setup 0 7 0) = some 0x00010011 := by decide

/-- P3 line 1, and what acceptance clears: RESULT stays (P5 line 8). -/
theorem test_exch_accepted :
    regAfter (.exchN2 0x03) .status State.reset = some 0x00010001 ∧
    regAfter (.exchN2 0x03) .lastcmd State.reset = some 0x00000203 ∧
    regAfter (.exchN1 0x07) .lastcmd State.reset = some 0x00000107 ∧
    regAfter (.exchN0 0x1E) .lastcmd State.reset = some 0x0000001E ∧
    regAfter (.exchN2 0x05) .status { State.reset with done := true, valid := true, result := .checksumMismatch } =
      some 0x00010201 ∧
    regAfter (.exchN0 0x1E) .rxdata used = some 0 ∧ regAfter (.exchN0 0x1E) .pins used = some 0x0000001D := by decide

/-- V-CTL-5: OVR, and LASTCMD names the first. -/
theorem test_exch_while_busy :
    regAfter (.exchN2 0x03) .status (running .setup 0 7 0) = some 0x00010009 ∧
    regAfter (.exchN2 0x03) .lastcmd (running .setup 0 7 0) = some 0x00000205 ∧
    regAfter (.exchN1 0x07) .status (running .setup 0 7 0) = some 0x00010009 ∧
    regAfter (.exchN0 0x1E) .status (running .setup 0 7 0) = some 0x00010009 := by decide

/-- The four commands latch their byte and count (R88, R147). -/
theorem test_wire_commands :
    regAfter .wireMeasureTemperature .lastcmd State.reset = some 0x00000203 ∧
    regAfter .wireMeasureRelativeHumidity .lastcmd State.reset = some 0x00000205 ∧
    regAfter .wireReadStatusRegister .lastcmd State.reset = some 0x00000107 ∧
    regAfter .wireSoftReset .lastcmd State.reset = some 0x0000001E := by decide

/-- V-CRC-21 to V-CRC-25. -/
theorem test_crc_unit :
    regAfter .crcClr .crc used = some 0x00000000 ∧
    regAfter (.crcAdd 0x05) .crc State.reset = some 0x0000AFF5 ∧
    regAfter (.crcAdd 0x09) .crc { State.reset with crcAcc := 0xF5 } = some 0x0000FFFF ∧
    regAfter (.crcAdd 0x31) .crc { State.reset with crcAcc := 0xFF } = some 0x00001A58 ∧
    regAfter (.crcAdd 0x58) .crc { State.reset with crcAcc := 0x58 } = some 0x00000000 := by decide

/-- V-CRC-26 and V-CRC-27, through a CTRL write (R83). -/
theorem test_crc_through_ctrl :
    regAfter (.wrCtrl 0xFFFF0503) .crc State.reset = some 0x0000AFF5 ∧
    regAfter (.wrCtrl 0x000000F3) .crc State.reset = some 0x00000000 := by decide

/-- V-CRC-1, V-CRC-6, V-CRC-11. -/
theorem test_crc_functions :
    rev8 0x97 = 0xE9 ∧ rev8 0x53 = 0xCA ∧ crc [] = 0x00 ∧ crc [0x05, 0x09, 0x31] = 0x58 ∧ rev8 0x58 = 0x1A ∧
    crc [0xFF, 0xFF, 0xFF] = 0x66 := by decide

/-- The CONV_T vectors at the ends of the range and around 0. -/
theorem test_conv_t :
    regAfter (.convT 0) .temp State.reset = some 0xFFFFF088 ∧
    regAfter (.convT 3960) .temp State.reset = some 0x00000000 ∧
    regAfter (.convT 6000) .temp State.reset = some 0x000007F8 ∧
    regAfter (.convT 65535) .temp State.reset = some 0x0000F087 := by decide

/-- The CONV_RHL vectors: both words. -/
theorem test_conv_rhl :
    regAfter (.convRhl 1000) .rhlHi State.reset = some 0x0000004C ∧
    regAfter (.convRhl 1000) .rhlLo State.reset = some 0xF7ECB640 ∧
    regAfter (.convRhl 65535) .rhlHi State.reset = some 0xFFFFD788 ∧
    regAfter (.convRhl 65535) .rhlLo State.reset = some 0x9C88E2ED ∧
    regAfter (.convRhl 11501) .rhlLo State.reset = some 0x9CB5D8B5 := by decide

/-- The CONV_RHT vectors: TEMP is the operand; RHL is not written (V-CONV-4). -/
theorem test_conv_rht :
    regAfter (.convRht 1000) .rhtHi { State.reset with temp := 2000 } = some 0x0000004B ∧
    regAfter (.convRht 1000) .rhtLo { State.reset with temp := 2000 } = some 0xEBB42940 ∧
    regAfter (.convRht 65535) .rhtHi { State.reset with temp := 0x10000 } = some 0xFFFFB707 ∧
    regAfter (.convRht 65535) .rhtLo { State.reset with temp := 0x10000 } = some 0xB8B716ED ∧
    regAfter (.convRht 1000) .rhlLo used = some 0x3C031B00 := by decide

/-- V-CONV-1, V-CONV-2, V-CTL-12. -/
theorem test_write_temp :
    regAfter (.wrTemp 0x0001F088) .temp State.reset = some 0xFFFFF088 ∧
    regAfter (.wrTemp 0x00010000) .temp State.reset = some 0xFFFF0000 ∧
    regAfter (.wrTemp 0x000007D0) .temp State.reset = some 0x000007D0 := by decide

/-- Each read returns its own register's word (V-PE-1's registers, P2's humidity words). -/
theorem test_reads :
    readBy .rdCtrl used = some 0 ∧ readBy .rdStatus used = some 0x0000011E ∧ readBy .rdRxdata used = some 0x4F4F7017 ∧
    readBy .rdRaw used = some 0x00001770 ∧ readBy .rdPolls used = some 3 ∧ readBy .rdCrc used = some 0x00001A58 ∧
    readBy .rdTemp used = some 0x000007D0 ∧ readBy .rdRhlLo used = some 0x3C031B00 ∧
    readBy .rdRhlHi used = some 0xFFFFFFFB ∧ readBy .rdRhtLo used = some 0xBAF75400 ∧
    readBy .rdRhtHi used = some 0xFFFFFFF9 ∧ readBy .rdLastcmd used = some 0x00000203 ∧
    readBy .rdPins used = some 0x0000001D := by decide

/-- V-CTL-9. -/
theorem test_reserved_reads :
    readBy .rdRsvd34 used = some 0 ∧ readBy .rdRsvd38 used = some 0 ∧ readBy .rdRsvd3C used = some 0 := by decide

/-- A write to a read-only or reserved offset changes no register (V-CTL-10, V-CRC-28). -/
theorem test_ignored_writes :
    nextOf (exec (.wrRoStatus 0xFFFFFFFF) used) = some used ∧ nextOf (exec (.wrRoCrc 0x12345678) used) = some used ∧
    nextOf (exec (.wrRoPins 0xFFFFFFFF) used) = some used ∧ nextOf (exec (.wrRsvd3C 0xFFFFFFFF) used) = some used := by decide

/-- A step runs the request that comes next: the assembler's accesses and a coded form (R72). -/
theorem test_step_runs_requests :
    nextOf (step { State.reset with inputs := [.host (.access (wrAccess .temp 2000)), .engine .ioErr] }) =
      some { State.reset with temp := 2000, inputs := [.engine .ioErr] } ∧
    nextOf (step { State.reset with inputs := [.host (.access (rdAccess .status))] }) = some { State.reset with reads := [0] } ∧
    nextOf (step (State.reset.withFetchWord 32 0x00000503)) = some { State.reset with crcAcc := 0xF5 } := by decide

/-- V-CTL-11: no step. -/
theorem test_step_refuses :
    refusalOf (step { State.reset with inputs := [.host (.access ⟨true, 0x18, 2, 0⟩)] }) =
      some (.notAdmitted (.accessWidth 2)) := by
  decide

/-! ## Single engine steps -/

/-- V-PE-6: an IoErr at operation 0. -/
theorem test_engine_io_error : regAfterEngine .ioErr .status (running .setup 0 7 0) = some 0x00000302 := by decide

/-- Section 2.7: WAIT leads to POLL, a Low poll to SHIFTIN, and counts (R129, R130). -/
theorem test_engine_wait_and_poll :
    regAfterEngine .ioErr .status (running .wait 2 0 0) = some 0x00060001 ∧
    regAfterEngine (.done .low) .status (running .poll 2 0 0) = some 0x00070001 ∧
    regAfterEngine (.done .low) .polls (running .poll 2 0 0) = some 1 ∧
    regAfterEngine (.done .high) .status (running .poll 2 0 0) = some 0x00060001 ∧
    regAfterEngine (.done .high) .polls { running .poll 2 0 0 with polls := 0xFFFFFFFF } = some 0xFFFFFFFF := by decide

/-- V-PE-8: the poll that reaches the bound times out; R224: a Low poll never does. -/
theorem test_engine_poll_bound :
    regAfterEngine (.done .high) .status { running .poll 2 0 0 with polls := 2, pollLimit := some ⟨3, by decide⟩ } =
      some 0x00000402 ∧
    regAfterEngine (.done .low) .status { running .poll 2 0 0 with polls := 2, pollLimit := some ⟨3, by decide⟩ } =
      some 0x00070001 := by decide

set_option maxRecDepth 4096 in
/-- P5: the verdict on 0x09, 0x31 with checksum 0x1A and 0x1B. -/
theorem test_engine_verdict :
    regAfterEngine (.done .low) .status (received 0x1A 1) = some 0x00000106 ∧
    regAfterEngine (.done .low) .rxdata (received 0x1A 1) = some 0x1A1A3109 ∧
    regAfterEngine (.done .low) .raw (received 0x1A 1) = some 0x00000931 ∧
    regAfterEngine (.done .low) .status (received 0x1B 1) = some 0x00000206 ∧
    regAfterEngine (.done .low) .rxdata (received 0x1B 1) = some 0x1A1B3109 :=
  ⟨by decide, by decide, by decide, by decide, by decide⟩

/-- V-PE-10: an IoErr at FINAL's last operation publishes nothing. -/
theorem test_engine_final_io_error :
    regAfterEngine .ioErr .status (received 0x1A 1) = some 0x00000302 ∧
    regAfterEngine .ioErr .rxdata (received 0x1A 1) = some 0 := by decide

/-- Section 2.6: the SoftReset trace's command levels at indices 11 to 34 (E13). -/
theorem test_trace_of_soft_reset :
    (exchangeTrace 0x1E 1 []).length = 40 ∧
    (exchangeTrace 0x1E 1 [])[17]? = some (.op (.set .data .low) .ok) ∧
    (exchangeTrace 0x1E 1 [])[20]? = some (.op (.set .data .high) .ok) ∧
    (exchangeTrace 0x1E 1 [])[32]? = some (.op (.set .data .low) .ok) := by decide

/-- R92's expansions against R85's words. -/
theorem test_assembler :
    Pseudo.expand (.exch 0x05 2) = .wrCtrl 0x00020501 ∧ Pseudo.expand .softReset = .wrCtrl 0x00001E01 ∧
    Pseudo.expand (.convt 6000) = .wrCtrl 0x17700004 ∧ Pseudo.expand (.settemp (-3960)) = .wrTemp 0xFFFFF088 := by decide

/-! ## Witnesses: states and operands that meet each statement's hypotheses -/

theorem witness_DecodeOfEncode : (Instr.exchN2 0xFF).wf = true ∧ (Instr.wrRsvd3C 0xFFFFFFFF).wf = true := by decide

/-- Each clause, at words that differ in every ignored bit. -/
theorem witness_UnreadCtrlBitsAreIgnored :
    ((0x00000000 : Word) &&& 0xF = 0xFFFFFFF0 &&& 0xF ∧ (0x00000000 : Word) &&& 0xF = 0) ∧
    ((0x00000002 : Word) &&& 0xF = 0xFFFFFFF2 &&& 0xF ∧ (0x00000002 : Word) &&& 0xF = 2) ∧
    ((0x00000007 : Word) &&& 0xF = 0xFFFFFFF7 &&& 0xF ∧ 7 ≤ (0x00000007 : Word) &&& 0xF) ∧
    ((0x0000000F : Word) &&& 0xF = 0xFFFFFFFF &&& 0xF ∧ 7 ≤ (0x0000000F : Word) &&& 0xF) ∧
    ((0x00020501 : Word) &&& 0xF = 0xFFFE05F1 &&& 0xF ∧ (0x00020501 : Word) &&& 0xF = 1 ∧
      (0x00020501 : Word) &&& 0x0003FF00 = 0xFFFE05F1 &&& 0x0003FF00) ∧
    ((0x00000503 : Word) &&& 0xF = 0xFFFF05F3 &&& 0xF ∧ (0x00000503 : Word) &&& 0xF = 3 ∧
      (0x00000503 : Word) &&& 0x0000FF00 = 0xFFFF05F3 &&& 0x0000FF00) ∧
    ((0x17700004 : Word) &&& 0xF = 0x1770FFF4 &&& 0xF ∧ (0x17700004 : Word) &&& 0xF = 4 ∧
      (0x17700004 : Word) &&& 0xFFFF0000 = 0x1770FFF4 &&& 0xFFFF0000) ∧
    ((0x03E80005 : Word) &&& 0xF = 5 ∧ (0x03E80005 : Word) &&& 0xFFFF0000 = 0x03E8FFF5 &&& 0xFFFF0000) ∧
    ((0x03E80006 : Word) &&& 0xF = 6 ∧ (0x03E80006 : Word) &&& 0xFFFF0000 = 0x03E8FFF6 &&& 0xFFFF0000) := by decide

theorem witness_StepRunsTheRequestedInstruction :
    decodeRequest (.access (wrAccess .ctrl 0x00020501)) = .ok (.wrCtrl 0x00020501) ∧
    (Instr.wrCtrl 0x00020501).wf = true ∧
    { used with inputs := [Input.host (.access (wrAccess .ctrl 0x00020501))] }.inputs =
      Input.host (.access (wrAccess .ctrl 0x00020501)) :: [] := by decide

theorem witness_StepRunsTheEngine :
    { running .poll 2 0 0 with inputs := [Input.engine .ioErr] }.inputs = Input.engine .ioErr :: [] ∧
    (running .poll 2 0 0).eng.phase ≠ .idle ∧ used.eng.phase = .idle := by decide

/-- Both clauses, at the ends of the window. -/
theorem witness_OnlyAdmittedAccessesStep :
    ((4 : Nat) = 4 ∧ 0x00 % 4 = 0 ∧ 0x00 ≤ 0x3C) ∧ ((4 : Nat) = 4 ∧ 0x3C % 4 = 0 ∧ 0x3C ≤ 0x3C) ∧
    ¬ ((4 : Nat) = 4 ∧ 0x40 % 4 = 0 ∧ 0x40 ≤ 0x3C) ∧ ¬ ((4 : Nat) = 4 ∧ 0x3D % 4 = 0 ∧ 0x3D ≤ 0x3C) ∧
    ¬ ((2 : Nat) = 4 ∧ 0x18 % 4 = 0 ∧ 0x18 ≤ 0x3C) := by decide

/-- The word clause, at both ends of OP and for EXCH with N = 3. -/
theorem witness_IllegalWordsSetIllOnly :
    7 ≤ (0x00000007 : Word).toNat % 16 ∧ 7 ≤ (0xFFFFFFFF : Word).toNat % 16 ∧
    ((0x00030301 : Word).toNat % 16 = 1 ∧ (0x00030301 : Word).toNat / 2 ^ 16 % 4 = 3) := by decide

theorem witness_ExchWhileBusySetsOvrOnly :
    (running .poll 2 0 0).busy = true ∧
    ((0x00001E01 : Word).toNat % 16 = 1 ∧ (0x00001E01 : Word).toNat / 2 ^ 16 % 4 ≠ 3) ∧
    ((0x00020501 : Word).toNat % 16 = 1 ∧ (0x00020501 : Word).toNat / 2 ^ 16 % 4 ≠ 3) := by decide

theorem witness_ExchIsAcceptedWhenNotBusy :
    used.busy = false ∧ ((0x00020501 : Word).toNat % 16 = 1 ∧ (0x00020501 : Word).toNat / 2 ^ 16 % 4 ≠ 3) ∧
    ((0xFFFC1EF1 : Word).toNat % 16 = 1 ∧ (0xFFFC1EF1 : Word).toNat / 2 ^ 16 % 4 ≠ 3) := by decide

/-- CTRL words of the operations that do not test BUSY, with every ignored bit set. -/
theorem witness_CtrlWordClauses :
    (0xFFFFFFF0 : Word).toNat % 16 = 0 ∧ (0xFFFFFFF2 : Word).toNat % 16 = 2 ∧ (0xFFFF05F3 : Word).toNat % 16 = 3 ∧
    ((0x1770FFF4 : Word).toNat % 16 = 4 ∧ (0x1770FFF4 : Word).toNat / 2 ^ 16 = (6000 : BitVec 16).toNat) ∧
    ((0x03E8FFF5 : Word).toNat % 16 = 5 ∧ (0x03E8FFF5 : Word).toNat / 2 ^ 16 = (1000 : BitVec 16).toNat) ∧
    ((0x03E8FFF6 : Word).toNat % 16 = 6 ∧ (0x03E8FFF6 : Word).toNat / 2 ^ 16 = (1000 : BitVec 16).toNat) := by decide

theorem witness_WritesDoWhatTheirOffsetSays :
    Instr.wrRoStatus 0xFFFFFFFF = .wrRoStatus 0xFFFFFFFF ∧ Instr.wrRsvd3C 0 = .wrRsvd3C 0 := by decide

theorem witness_CommandsStartTheirExchange : used.busy = false ∧ (running .cmd 1 3 0).busy = true := by decide

theorem witness_OneWriteSetsAtMostOneStickyBit :
    nextOf (exec (.wrCtrl 0x00030301) (running .poll 2 0 0)) = some { running .poll 2 0 0 with ill := true } ∧
    (running .poll 2 0 0).ovr = false ∧ (running .poll 2 0 0).ill = false ∧
    ((0x00030301 : Word).toNat % 16 = 1 ∧ (0x00030301 : Word).toNat / 2 ^ 16 % 4 = 3) := by decide

theorem witness_NoInstructionDisturbsARunningExchange : (running .shiftin 1 4 1).busy = true := by decide

/-- An instruction for each register the statement names, and an engine step that completes. -/
theorem witness_OnlyTheirOperationsWriteTheUnits :
    (nextOf (exec (.wrCtrl 0x00000503) State.reset) = some { State.reset with crcAcc := 0xF5 } ∧ (0xF5 : Byte) ≠ State.reset.crcAcc) ∧
    (nextOf (exec (.wrTemp 2000) State.reset) = some { State.reset with temp := 2000 } ∧ (2000 : BitVec 17) ≠ State.reset.temp) ∧
    (nextOf (exec (.convRhl 0) State.reset) = some { State.reset with rhl := BitVec.ofInt 48 (-20468000000) } ∧
      BitVec.ofInt 48 (-20468000000) ≠ State.reset.rhl) ∧
    (nextOf (exec (.convRht 0) State.reset) = some { State.reset with rht := BitVec.ofInt 48 (-22968000000) } ∧
      BitVec.ofInt 48 (-22968000000) ≠ State.reset.rht) ∧
    nextOf (engineStep (.done .low) (running .wait 2 0 0)) =
      some { running .wait 2 0 0 with lt := [.delay], eng := { (running .wait 2 0 0).eng with phase := .poll } } := by decide

/-- The converter's operand range, at both ends. -/
theorem witness_ConvRhtWritesTheTrueHumidity :
    (-3960 ≤ (BitVec.ofInt 17 (-3960)).toInt ∧ (BitVec.ofInt 17 (-3960)).toInt ≤ 61575) ∧
    (-3960 ≤ (BitVec.ofInt 17 61575).toInt ∧ (BitVec.ofInt 17 61575).toInt ≤ 61575) := by decide

/-- Each clause at the ends of its range; no x lies in both. -/
theorem witness_ConverterLaws :
    ((11501 : BitVec 16).toNat = (11500 : BitVec 16).toNat + 1 ∧ (11501 : BitVec 16).toNat ≤ 11501) ∧
    ((11503 : BitVec 16).toNat = (11502 : BitVec 16).toNat + 1 ∧ 11502 ≤ (11502 : BitVec 16).toNat) ∧
    ((1 : BitVec 16).toNat = (0 : BitVec 16).toNat + 1) ∧
    ((65535 : BitVec 16).toNat = (65534 : BitVec 16).toNat + 1 ∧ 11502 ≤ (65534 : BitVec 16).toNat) := by decide

theorem witness_UnitsAndEngineDoNotInterfere :
    nextOf (exec (.crcAdd 0x05) (running .wait 2 0 0)) = some { running .wait 2 0 0 with crcAcc := 0xF5 } ∧
    nextOf (engineStep .ioErr (running .wait 2 0 0)) =
      some { running .wait 2 0 0 with lt := [.delay], eng := { (running .wait 2 0 0).eng with phase := .poll } } := by decide

theorem witness_SetupPhase :
    (CountsLegal (running .setup 0 7 0).eng ∧ (running .setup 0 7 0).eng.phase = .setup ∧ (running .setup 0 7 0).eng.step = 0) := by decide

theorem witness_StartPhase :
    (CountsLegal (running .start 0 7 0).eng ∧ (running .start 0 7 0).eng.phase = .start ∧ (running .start 0 7 0).eng.step = 0) := by decide

/-- The first bit and the last. -/
theorem witness_CommandBit :
    (CountsLegal (running .cmd 0 7 0).eng ∧ (running .cmd 0 7 0).eng.phase = .cmd ∧ (running .cmd 0 7 0).eng.step = 0) ∧
    (CountsLegal (running .cmd 0 0 0).eng ∧ (running .cmd 0 0 0).eng.phase = .cmd ∧ (running .cmd 0 0 0).eng.step = 0 ∧ (running .cmd 0 0 0).eng.bit = 0) := by decide

/-- The state in which SoftReset, with no response, stands at the acknowledgment release. -/
def softReset : State := { running .ackrel 0 0 0 with lastCmd := 0x1E, lastN := 0, eng := { (running .ackrel 0 0 0).eng with cmd := 0x1E, n := 0 } }

/-- With a response expected, and without. -/
theorem witness_AcknowledgmentRelease :
    (CountsLegal (running .ackrel 0 0 0).eng ∧ (running .ackrel 0 0 0).eng.phase = .ackrel ∧ (running .ackrel 0 0 0).eng.step = 0 ∧ (running .ackrel 0 0 0).eng.n ≠ 0) ∧
    (CountsLegal softReset.eng ∧ softReset.eng.phase = .ackrel ∧ softReset.eng.step = 0 ∧ softReset.eng.n = 0) := by decide

theorem witness_WaitPhase : CountsLegal (running .wait 2 0 0).eng ∧ (running .wait 2 0 0).eng.phase = .wait := by decide

/-- The first bit of a byte, and the last bit of the checksum byte. -/
theorem witness_ShiftInBit :
    (CountsLegal (running .shiftin 0 7 0).eng ∧ (running .shiftin 0 7 0).eng.phase = .shiftin ∧ (running .shiftin 0 7 0).eng.step = 0) ∧
    (CountsLegal (running .shiftin 0 0 2).eng ∧ (running .shiftin 0 0 2).eng.phase = .shiftin ∧ (running .shiftin 0 0 2).eng.step = 0 ∧ (running .shiftin 0 0 2).eng.bit = 0) := by decide

/-- Before the last byte, and after it. -/
theorem witness_ByteAcknowledgment :
    (CountsLegal (running .rxack 0 0 1).eng ∧ (running .rxack 0 0 1).eng.phase = .rxack ∧ (running .rxack 0 0 1).eng.step = 0 ∧ (running .rxack 0 0 1).eng.byte ≠ (running .rxack 0 0 1).eng.n) ∧
    (CountsLegal (running .rxack 0 0 2).eng ∧ (running .rxack 0 0 2).eng.phase = .rxack ∧ (running .rxack 0 0 2).eng.step = 0 ∧ (running .rxack 0 0 2).eng.byte = (running .rxack 0 0 2).eng.n) := by decide

/-- With no bound; and with a bound of 3, at one poll counted (the next is below it) and at two (the next reaches it). -/
theorem witness_PollPhase :
    (CountsLegal (running .poll 2 0 0).eng ∧ (running .poll 2 0 0).eng.phase = .poll ∧ (running .poll 2 0 0).pollLimit = none) ∧
    { running .poll 2 0 0 with polls := 1, pollLimit := some ⟨3, by decide⟩ }.pollLimit = some ⟨3, by decide⟩ ∧
    min ((1 : Word).toNat + 1) 0xFFFFFFFF < (3 : Word).toNat ∧ (3 : Word).toNat ≤ min ((2 : Word).toNat + 1) 0xFFFFFFFF := by
  decide

/-- A state in which the engine stands at FINAL after an exchange of n payload bytes. -/
def finishing (n : BitVec 2) : State :=
  { running .final 0 0 n with lastN := n, eng := { (running .final 0 0 n).eng with n := n } }

theorem witness_FinalPhase :
    ((finishing 0).eng.phase = .final ∧ (finishing 0).eng.step = 0 ∧ (finishing 0).eng.byte ≤ (finishing 0).eng.n ∧
      (finishing 0).eng.n = 0) ∧
    ((finishing 1).eng.phase = .final ∧ (finishing 1).eng.step = 0 ∧ (finishing 1).eng.byte ≤ (finishing 1).eng.n ∧
      (finishing 1).eng.n = 1) ∧
    ((finishing 2).eng.phase = .final ∧ (finishing 2).eng.step = 0 ∧ (finishing 2).eng.byte ≤ (finishing 2).eng.n ∧
      (finishing 2).eng.n = 2) := by decide

theorem witness_IoErrEndsTheExchange :
    engineAct (running .poll 2 0 0).eng = some (.line (.get .data)) ∧
    engineAct (running .setup 0 7 0).eng = some (.line (.dir .sck .output)) := by decide

theorem witness_OneLineOperationPerStep :
    (∃ t, engineStep .ioErr (running .poll 2 0 0) = .next t) ∧ ∃ t, engineStep .ioErr (running .wait 2 0 0) = .next t :=
  ⟨⟨_, rfl⟩, ⟨_, rfl⟩⟩

/-- The invariants of a state in which an exchange waits in POLL. -/
theorem witness_BlockInv_running : BlockInv (running .poll 2 0 0) :=
  ⟨by decide, by decide, by decide, by decide, by decide, by decide, by decide⟩

/-- The invariants of a state in which an exchange has ended with its bytes. -/
theorem witness_BlockInv_used : BlockInv used :=
  ⟨by decide, by decide, by decide, by decide, by decide, by decide, by decide⟩

/-- A step from that running state. -/
theorem witness_BlockInvIsKept :
    ∃ t, step { running .poll 2 0 0 with inputs := [.engine (.done .low)] } = .next t := ⟨_, rfl⟩

theorem witness_NoReachableStepFaults : SequenceInv (running .poll 2 0 0) ∧ SequenceInv (running .start 6 7 0) :=
  ⟨⟨by decide, by decide⟩, ⟨by decide, by decide⟩⟩

theorem witness_DirectionInvIsKept : DirectionInv (running .poll 2 0 0) ∧
    ∃ t, step { running .poll 2 0 0 with inputs := [.engine (.done .low)] } = .next t :=
  ⟨⟨by decide, by decide⟩, ⟨_, rfl⟩⟩

/-- A `Get(DATA)`, a `Set(SCK, ·)` and a `Set(DATA, ·)` to come. -/
theorem witness_EngineMeetsTheGpioContract :
    (DirectionInv (running .poll 2 0 0) ∧ engineAct (running .poll 2 0 0).eng = some (.line (.get .data))) ∧
    (DirectionInv (running .shiftin 0 7 0) ∧ engineAct (running .shiftin 0 7 0).eng = some (.line (.set .sck .high))) ∧
    (DirectionInv used ∧ dataConfigured used.eng = none) :=
  ⟨⟨⟨by decide, by decide⟩, by decide⟩, ⟨⟨by decide, by decide⟩, by decide⟩, ⟨by decide, by decide⟩, by decide⟩

/-- With a bound of 3 and two polls counted. -/
theorem witness_PollInvIsKept :
    PollInv { running .poll 2 0 0 with polls := 2, pollLimit := some ⟨3, by decide⟩ } := by
  refine ⟨by decide, fun n h => ?_⟩
  injection h with h
  subst h
  decide

theorem witness_ResultsAreQuietWhileBusy : QuietInv (running .poll 2 0 0) ∧ (running .poll 2 0 0).busy = true :=
  ⟨by intro _; decide, by decide⟩

/-- What the environment presents to make an event's answer. -/
def replyFor : LineEvent → EnvReply
  | .op _ (.lvl v) => .done v
  | .op _ .ioErr   => .ioErr
  | _              => .done .low

/-- Is the event's answer one of its operation's answer type (R64)? -/
def answerFits : LineEvent → Bool
  | .op (.get _) (.lvl _)  => true
  | .op (.get _) .ok       => false
  | .op _ (.lvl _)         => false
  | _                      => true

theorem replyFor_presents : ∀ ev, answerFits ev = true → presents ev (replyFor ev)
  | .op (.get _) (.lvl _), _ => rfl
  | .op (.get _) .ioErr, _   => rfl
  | .op (.dir _ _) .ok, _    => rfl
  | .op (.dir _ _) .ioErr, _ => rfl
  | .op (.set _ _) .ok, _    => rfl
  | .op (.set _ _) .ioErr, _ => rfl
  | .delay, _                => trivial

theorem replies_present : ∀ tr : List LineEvent, tr.all answerFits = true → List.Forall₂ presents tr (tr.map replyFor)
  | [], _ => .nil
  | ev :: tr, h => by
    simp only [List.all_cons, Bool.and_eq_true] at h
    exact .cons (replyFor_presents ev h.1) (replies_present tr h.2)

theorem byteTrace_fits (b : Byte) : (byteTrace b).all answerFits = true := rfl

theorem cmdTrace_fits (b : Byte) : (cmdTrace b).all answerFits = true := rfl

theorem pollTrace_fits (k : Nat) : (pollTrace k).all answerFits = true := by
  simp [pollTrace, answerFits]

/-- Every answer of a complete exchange's trace fits its operation, whatever the command, the polls and the response. -/
theorem exchangeTrace_fits (cmd : Byte) (k : Nat) (r : List Byte) : (exchangeTrace cmd k r).all answerFits = true := by
  have h : (setupTrace.all answerFits = true ∧ startTrace.all answerFits = true) ∧
      ackrelTrace.all answerFits = true ∧ finalTrace.all answerFits = true := ⟨⟨rfl, rfl⟩, rfl, rfl⟩
  have hb : (r.flatMap byteTrace).all answerFits = true := by
    rw [List.all_flatMap, List.all_eq_true]
    exact fun b _ => byteTrace_fits b
  simp only [exchangeTrace, List.all_append, h.1.1, h.1.2, h.2.1, h.2.2, cmdTrace_fits, Bool.and_true, Bool.true_and]
  split
  · rfl
  · simp only [List.cons_append, List.all_cons, List.all_append, pollTrace_fits, hb, answerFits, Bool.and_true]

theorem exchange_presentable (cmd : Byte) (k : Nat) (r : List Byte) :
    List.Forall₂ presents (exchangeTrace cmd k r) ((exchangeTrace cmd k r).map replyFor) :=
  replies_present _ (exchangeTrace_fits cmd k r)

/-- The exchanges of V-PE-4, V-PE-3 and V-PE-1: no response, one payload byte, two payload bytes and three polls. -/
theorem witness_CompleteExchange :
    List.Forall₂ presents (exchangeTrace 0x1E 1 []) ((exchangeTrace 0x1E 1 []).map replyFor) ∧
    List.Forall₂ presents (exchangeTrace 0x07 1 [0x00, 0x75]) ((exchangeTrace 0x07 1 [0x00, 0x75]).map replyFor) ∧
    List.Forall₂ presents (exchangeTrace 0x03 3 [0x17, 0x70, 0x4F]) ((exchangeTrace 0x03 3 [0x17, 0x70, 0x4F]).map replyFor) ∧
    (∀ n, State.reset.pollLimit = some n → 3 ≤ n.val.toNat) :=
  ⟨exchange_presentable _ _ _, exchange_presentable _ _ _, exchange_presentable _ _ _, nofun⟩

/-- With a bound of 1 met by one poll, and without a bound, as in V-PE-1. -/
theorem witness_ExchangeCounts :
    List.Forall₂ presents (exchangeTrace 0x07 1 [0x00, 0x75]) ((exchangeTrace 0x07 1 [0x00, 0x75]).map replyFor) ∧
    (∀ n, { State.reset with pollLimit := some ⟨1, by decide⟩ }.pollLimit = some n → 1 ≤ n.val.toNat) ∧
    List.Forall₂ presents (exchangeTrace 0x03 3 [0x17, 0x70, 0x4F]) ((exchangeTrace 0x03 3 [0x17, 0x70, 0x4F]).map replyFor) ∧
    List.Forall₂ presents (exchangeTrace 0x1E 1 []) ((exchangeTrace 0x1E 1 []).map replyFor) := by
  refine ⟨exchange_presentable _ _ _, fun n h => ?_, exchange_presentable _ _ _, exchange_presentable _ _ _⟩
  injection h with h
  subst h
  decide

/-- The least bound, and N = 0 and N = 2. -/
theorem witness_BoundedExchangesEnd :
    { State.reset with pollLimit := some ⟨1, by decide⟩ }.pollLimit = some ⟨1, by decide⟩ ∧
    (0 : BitVec 2) ≤ 2 ∧ (2 : BitVec 2) ≤ 2 ∧ (List.replicate 129 (EnvReply.done .high)).length = 128 + (1 : Word).toNat :=
  ⟨rfl, by decide, by decide, List.length_replicate⟩

theorem witness_UnboundedPollHangs :
    CountsLegal (running .poll 2 0 0).eng ∧ (running .poll 2 0 0).eng.phase = .poll ∧ (running .poll 2 0 0).pollLimit = none := by
  decide

set_option maxRecDepth 4096 in
/-- A wait that returns at once, and one that returns after one engine step of a running exchange. -/
theorem witness_WaitDoneReturnsTheResult :
    BlockInv used ∧ (∃ t, waitDone [] used = some (0x0000011E, t)) ∧
    BlockInv (received 0x1A 1) ∧ (received 0x1A 1).busy = true ∧
    ∃ t, waitDone [.done .low] (received 0x1A 1) = some (0x00000106, t) :=
  ⟨witness_BlockInv_used, ⟨_, rfl⟩, ⟨by decide, by decide, by decide, by decide, by decide, by decide, by decide⟩, by decide,
   ⟨_, rfl⟩⟩

theorem witness_TempWriteKeepsSeventeenBits : (16 ≤ 16 ∧ 16 < 32) ∧ (16 ≤ 31 ∧ 31 < 32) := by decide

theorem witness_BitReversal : 0 < 8 ∧ 7 < 8 := by decide

theorem witness_ResetAtAnyTime :
    { running .poll 2 0 0 with inputs := [Input.reset] }.inputs = Input.reset :: [] ∧ (running .poll 2 0 0).busy = true := by decide

end Sys2Proof.Machine.Tests
end

section
/-! The state (`10_state.md`): the STATUS word, TEMP, the register map of the host window, and the invariants of R45. -/

namespace Sys2Proof.Machine

/-! ## The STATUS word (R23 to R30) -/

theorem resultCode_injective : Function.Injective resultCode := by
  intro a b
  cases a <;> cases b <;> decide

theorem phaseCode_injective : Function.Injective phaseCode := by
  intro a b
  cases a <;> cases b <;> decide

/-- The five flags at bits 0 to 4 (R23 to R27). -/
theorem statusWord_flags (s : State) :
    (statusWord s).getLsbD 0 = s.busy ∧ (statusWord s).getLsbD 1 = s.done ∧ (statusWord s).getLsbD 2 = s.valid ∧
    (statusWord s).getLsbD 3 = s.ovr ∧ (statusWord s).getLsbD 4 = s.ill := by
  simp only [statusWord, BitVec.getLsbD_append]
  simp

/-- RESULT at bits 11:8 (R28). -/
theorem statusWord_result (s : State) : (statusWord s).extractLsb' 8 4 = resultCode s.result := by
  simp only [statusWord, BitVec.extractLsb'_append_eq_ite]
  simp

/-- PHASE at bits 23:16 (R29). -/
theorem statusWord_phase (s : State) : (statusWord s).extractLsb' 16 8 = phaseCode s.eng.phase := by
  simp only [statusWord, BitVec.extractLsb'_append_eq_ite]
  simp

theorem statusWord_reserved (s : State) :
    (statusWord s).extractLsb' 5 3 = 0 ∧ (statusWord s).extractLsb' 12 4 = 0 ∧ (statusWord s).extractLsb' 24 8 = 0 := by
  simp only [statusWord, BitVec.extractLsb'_append_eq_ite]
  simp

theorem statusWord_result_eq_iff (s : State) (r : Result) :
    (statusWord s).extractLsb' 8 4 = resultCode r ↔ s.result = r := by
  rw [statusWord_result, resultCode_injective.eq_iff]

theorem statusWord_phase_eq_iff (s : State) (p : Phase) :
    (statusWord s).extractLsb' 16 8 = phaseCode p ↔ s.eng.phase = p := by
  rw [statusWord_phase, phaseCode_injective.eq_iff]

/-- Settles O12: each code is the one its field holds, and the codes are distinct. -/
theorem statusWordFields : Obligations.StatusWordFields := by
  unfold Obligations.StatusWordFields
  intro s v
  have res := statusWord_result_eq_iff s
  have phase := statusWord_phase_eq_iff s
  exact ⟨statusWord_flags s, res .none, res .success, res .checksumMismatch, res .ioError, res .timeout,
    phase .idle, phase .setup, phase .start, phase .cmd, phase .ackrel, phase .wait, phase .poll, phase .shiftin,
    phase .rxack, phase .final, statusWord_reserved s, rfl⟩

/-! ## TEMP (R35, R204) -/

/-- The low `w` bits of a sign extension are the value extended. -/
theorem signExtend_toNat_mod {w v : Nat} (x : BitVec w) (h : w ≤ v) : (x.signExtend v).toNat % 2 ^ w = x.toNat := by
  have low : (x.signExtend v).setWidth w = x := by
    ext i hi
    rw [BitVec.getElem_setWidth, BitVec.getLsbD_signExtend]
    simp [hi, hi.trans_le h]
  rw [← BitVec.toNat_setWidth, low]

/-- Every bit of a sign extension above the value's top bit equals it. -/
theorem getLsbD_signExtend_high (x : BitVec 17) {j : Nat} (hj : 16 ≤ j) (hj' : j < 32) :
    (x.signExtend 32).getLsbD j = x.getLsbD 16 := by
  rw [BitVec.getLsbD_signExtend]
  split
  · next h => simp [show j = 16 by omega]
  · simp [hj', BitVec.msb_eq_getLsbD_last]

/-- Settles O14: TEMP holds `v[16:0]`, and its read is the sign extension of what it holds. -/
theorem tempWriteKeepsSeventeenBits : Obligations.TempWriteKeepsSeventeenBits := by
  unfold Obligations.TempWriteKeepsSeventeenBits
  intro v s
  have held : (v.extractLsb' 0 17).toNat = v.toNat % 2 ^ 17 := by simp
  refine ⟨_, rfl, rfl, held, ?_, fun j hj hj' => ?_⟩
  · exact (signExtend_toNat_mod (v.extractLsb' 0 17) (by decide)).trans held
  · exact (getLsbD_signExtend_high (v.extractLsb' 0 17) hj hj').trans (by simp)

/-! ## The register map (R21, R61, R87) -/

@[simp] theorem regAt_offset (r : Reg) : regAt r.offset = some r := by cases r <;> rfl

theorem takeInput_read (r : Reg) (v : Word) (s : State) :
    takeInput (.host (.access ⟨false, r.offset, 4, v⟩)) s = exec (rdInstr r) s := by
  simp [takeInput, hostTurn, decodeRequest, decodeAccess, decodeTxn]

theorem takeInput_write (r : Reg) (v : Word) (s : State) :
    takeInput (.host (.access ⟨true, r.offset, 4, v⟩)) s = exec (wrInstr r v) s := by
  simp [takeInput, hostTurn, decodeRequest, decodeAccess, decodeTxn]

/-- The six-byte form of a transaction is its 4-byte access (R87, log entry 5). -/
theorem decode_lanes_txn (v : Word) (off : Byte) :
    decode (lanes v ++ [off, 0]) = decodeAccess ⟨false, off.toNat, 4, v⟩ ∧
    decode (lanes v ++ [off, 1]) = decodeAccess ⟨true, off.toNat, 4, v⟩ := by
  simp [decode, lanes, decodeAccess, ofLanes_lanes]

/-- Settles O9: the access at a register's offset is that register's read or write, and the coded form is the access. -/
theorem accessesReachTheirRegister : Obligations.AccessesReachTheirRegister := by
  unfold Obligations.AccessesReachTheirRegister
  intro s v
  have rd := fun r => takeInput_read r v s
  have wr := fun r => takeInput_write r v s
  refine ⟨rd .ctrl, rd .status, rd .rxdata, rd .raw, rd .polls, rd .crc, rd .temp, rd .rhlLo, rd .rhlHi, rd .rhtLo,
    rd .rhtHi, rd .lastcmd, rd .pins, rd .rsvd34, rd .rsvd38, rd .rsvd3C,
    wr .ctrl, wr .status, wr .rxdata, wr .raw, wr .polls, wr .crc, wr .temp, wr .rhlLo, wr .rhlHi, wr .rhtLo,
    wr .rhtHi, wr .lastcmd, wr .pins, wr .rsvd34, wr .rsvd38, wr .rsvd3C, fun off => ?_⟩
  obtain ⟨read, write⟩ := decode_lanes_txn v off
  simp only [takeInput, hostTurn, decodeRequest, read, write, and_self]

/-! ## The invariants of R45 -/

/-- CRC.REV is the bit reversal of CRC.ACC: the read computes it (R34). -/
theorem crcWord_rev (s : State) :
    (regValue s .crc).extractLsb' 8 8 = rev8 ((regValue s .crc).extractLsb' 0 8) := by
  simp only [regValue, crcWord, BitVec.extractLsb'_append_eq_ite]
  simp

/-- What the invariants of R45 speak of, but for the CRC register, whose clause holds of every state. -/
def exchangePart (s : State) : (Bool × Bool × Bool) × Result × Word × (Byte × BitVec 2) × Engine :=
  ((s.busy, s.done, s.valid), s.result, s.rxdata, (s.lastCmd, s.lastN), s.eng)

/-- A change outside `exchangePart` keeps the invariants. -/
theorem BlockInv.congr {s t : State} (h : BlockInv s) (e : exchangePart t = exchangePart s) : BlockInv t := by
  simp only [exchangePart, Prod.mk.injEq] at e
  obtain ⟨⟨busy, done, valid⟩, result, rxdata, ⟨lastCmd, lastN⟩, eng⟩ := e
  obtain ⟨running, apart, hasResult, counts, verdict, -, latched⟩ := h
  constructor <;> simp only [busy, done, valid, result, rxdata, lastCmd, lastN, eng, crcWord_rev] <;> assumption

theorem blockInv_reset : BlockInv State.reset where
  busy_iff_running := by decide
  busy_xor_done := by decide
  valid_has_result := nofun
  counts_legal := by decide
  verdict_published := nofun
  rev_is_computed := crcWord_rev _
  lastcmd_is_latched := ⟨rfl, rfl⟩

/-- While an exchange runs nothing is published yet. -/
theorem BlockInv.running_flags {s : State} (h : BlockInv s) (hs : s.eng.phase ≠ .idle) :
    s.busy = true ∧ s.valid = false := by
  have busy := h.busy_iff_running.mpr hs
  exact ⟨busy, Bool.eq_false_iff.mpr fun valid => h.busy_xor_done ⟨busy, (h.valid_has_result valid).1⟩⟩

/-- A running engine may move on, within the exchange it latched. -/
theorem BlockInv.engine_moves {s : State} (h : BlockInv s) (hs : s.eng.phase ≠ .idle) {e : Engine} (he : e.phase ≠ .idle)
    (counts : CountsLegal e) (cmd : e.cmd = s.eng.cmd) (n : e.n = s.eng.n) : BlockInv { s with eng := e } :=
  { h with
    busy_iff_running := iff_of_true (h.running_flags hs).1 he
    counts_legal := counts
    rev_is_computed := crcWord_rev _
    lastcmd_is_latched := by rw [cmd, n]; exact h.lastcmd_is_latched }

/-- An accepted EXCH clears VALID and DONE and latches what it names (R120). -/
theorem blockInv_acceptExchange (cmd : Byte) {n : BitVec 2} (hn : n ≤ 2) (s : State) :
    BlockInv (acceptExchange cmd n s) where
  busy_iff_running := iff_of_true rfl nofun
  busy_xor_done := nofun
  valid_has_result := nofun
  counts_legal := ⟨hn, two_bits_nonneg n⟩
  verdict_published := nofun
  rev_is_computed := crcWord_rev _
  lastcmd_is_latched := ⟨rfl, rfl⟩

/-- CRCREV and CKSUM of the published RXDATA (R31). -/
theorem rxdataWord_crcRev_cksum (e : Engine) :
    (rxdataWord e).extractLsb' 24 8 = rev8 e.crc ∧ (rxdataWord e).extractLsb' 16 8 = checksumByte e := by
  simp only [rxdataWord, BitVec.extractLsb'_append_eq_ite]
  simp

/-- `finish` keeps the invariants, if the result it publishes is the verdict on the bytes it publishes (R138, R140). -/
theorem BlockInv.after_finish {s : State} (h : BlockInv s) {res : Result}
    (hv : publishes res s.eng.n = true → (rev8 s.eng.crc = checksumByte s.eng ↔ res = .success)) :
    BlockInv (finish res s) where
  busy_iff_running := by simp [finish]
  busy_xor_done := by simp [finish]
  valid_has_result := by
    intro hp
    obtain ⟨hr, hn⟩ := (publishes_iff res s.eng.n).mp hp
    refine ⟨rfl, hr, ?_⟩
    show 1 ≤ s.lastN.toNat
    rw [h.lastcmd_is_latched.2]
    exact Nat.one_le_iff_ne_zero.mpr (BitVec.toNat_ne_iff_ne.mpr hn)
  counts_legal := h.counts_legal
  verdict_published := by
    intro (hp : publishes res s.eng.n = true)
    obtain ⟨rev, cksum⟩ := rxdataWord_crcRev_cksum s.eng
    simp only [finish, hp, if_true, rev, cksum]
    exact hv hp
  rev_is_computed := crcWord_rev _
  lastcmd_is_latched := h.lastcmd_is_latched

/-- With a payload the verdict is SUCCESS exactly when the checksums agree (R138). -/
theorem verdict_eq_success_iff {e : Engine} (hn : e.n ≠ 0) :
    verdict e = .success ↔ rev8 e.crc = checksumByte e := by
  by_cases h : rev8 e.crc = checksumByte e <;> simp only [verdict, if_neg hn, h, if_true, if_false, reduceCtorEq]

/-- The end of FINAL keeps the invariants (R135). -/
theorem BlockInv.after_conclude {s : State} (h : BlockInv s) (hs : s.eng.phase ≠ .idle) : BlockInv (conclude s) := by
  rw [conclude_eq]
  have moved : BlockInv { s with eng := { s.eng with crc := exchangeCrc s.eng } } :=
    h.engine_moves hs hs h.counts_legal rfl rfl
  exact moved.after_finish fun hp => (verdict_eq_success_iff ((publishes_iff _ _).mp hp).2).symm

/-- The phase rules keep the invariants (R123 to R135). -/
theorem BlockInv.after_phaseEffect {s : State} (h : BlockInv s) (hs : s.eng.phase ≠ .idle) (a : Answer) :
    BlockInv (phaseEffect a s) := by
  have counts := phaseEffect_counts a s h.counts_legal
  have polled : BlockInv { s with polls := countPoll s.polls } := h.congr rfl
  obtain ⟨e, heq, cmd, n, he⟩ | ⟨-, heq⟩ | ⟨-, heq⟩ | ⟨-, heq⟩ | ⟨-, heq⟩ := phaseEffect_cases a s hs
  · rw [heq] at counts ⊢
    exact h.engine_moves hs he counts cmd n
  · exact heq ▸ polled
  · rw [heq] at counts ⊢
    exact polled.engine_moves hs nofun counts rfl rfl
  · exact heq ▸ polled.after_finish nofun
  · exact heq ▸ h.after_conclude hs

/-- An engine step keeps the invariants (R121, R122, R129). -/
theorem BlockInv.after_engineStep {r : EnvReply} {s t : State} (h : BlockInv s) (hs : s.eng.phase ≠ .idle)
    (hst : engineStep r s = .next t) : BlockInv t := by
  have observed : ∀ o a, BlockInv (observe o a s) := fun _ _ => h.congr rfl
  obtain ⟨counts, ⟨-, -, rfl⟩ | ⟨o, -, ⟨-, rfl⟩ | ⟨-, rfl⟩⟩⟩ := engineStep_cases hst
  · have waited : BlockInv { s with eng := { s.eng with phase := .poll } } := h.engine_moves hs nofun counts rfl rfl
    exact waited.congr rfl
  · exact (observed o .ioErr).after_finish nofun
  · exact (observed o _).after_phaseEffect hs _

/-- An instruction keeps the invariants (R200 to R204). -/
theorem BlockInv.after_exec {i : Instr} {s t : State} (h : BlockInv s) (hst : exec i s = .next t) : BlockInv t := by
  obtain ⟨cmd, n, hn, -, heq⟩ | ⟨ovr, ill, acc, temp, rhl, rht, reads, heq⟩ := exec_cases i s <;>
    (rw [heq] at hst; injection hst with hst; subst hst)
  · exact blockInv_acceptExchange cmd hn s
  · exact h.congr rfl

/-- Settles O47: taking an input, an instruction, an engine step and reset each keep the invariants. -/
theorem blockInvIsKept : Obligations.BlockInvIsKept := by
  unfold Obligations.BlockInvIsKept
  intro s t hs hst
  exact step_keeps (fun _ _ _ h => h.congr rfl) (fun _ _ _ h => h.after_exec) (fun _ _ _ h => h.after_engineStep)
    (fun _ _ => blockInv_reset.congr rfl) hs hst

/-- Settles O46: after reset nothing runs and nothing is published. -/
theorem blockInvAtReset : Obligations.BlockInvAtReset := blockInv_reset

end Sys2Proof.Machine
end

section
/-! The host window (`20_memory.md`): which accesses it admits (R61), and what its reserved offsets and fields read and
ignore (R62). -/

namespace Sys2Proof.Machine

/-! ## Admitted accesses (R61) -/

theorem offset_aligned_in_window (r : Reg) : r.offset % 4 = 0 ∧ r.offset ≤ 0x3C := by
  cases r <;> decide

theorem eq_offset_of_regAt {off : Nat} {r : Reg} (h : regAt off = some r) : off = r.offset := by
  unfold regAt at h
  split at h <;> cases h <;> rfl

/-- The window has a register at every aligned offset up to 0x3C (R21). -/
theorem exists_offset_eq {off : Nat} (aligned : off % 4 = 0) (inside : off ≤ 0x3C) : ∃ r : Reg, r.offset = off := by
  have all : ∀ k < 16, (regAt (4 * k)).isSome := by decide
  obtain ⟨k, rfl⟩ := Nat.dvd_of_mod_eq_zero aligned
  obtain ⟨r, hr⟩ := Option.isSome_iff_exists.mp (all k (by omega))
  exact ⟨r, (eq_offset_of_regAt hr).symm⟩

theorem regAt_eq_none {off : Nat} (h : ¬ (off % 4 = 0 ∧ off ≤ 0x3C)) : regAt off = none := by
  rw [Option.eq_none_iff_forall_ne_some]
  intro r hr
  exact h (eq_offset_of_regAt hr ▸ offset_aligned_in_window r)

theorem decodeAccess_rejected {a : BusAccess} (h : ¬ (a.width = 4 ∧ a.off % 4 = 0 ∧ a.off ≤ 0x3C)) :
    ∃ why, decodeAccess a = .rejected why := by
  unfold decodeAccess
  split
  · next width =>
    have outside := regAt_eq_none fun offset => h ⟨width, offset⟩
    exact ⟨_, by rw [decodeTxn, outside]⟩
  · exact ⟨_, rfl⟩

/-- No instruction faults or is refused (R220). -/
theorem exec_completes (i : Instr) (s : State) : ∃ t, exec i s = .next t := by
  obtain ⟨_, _, -, -, h⟩ | ⟨_, _, _, _, _, _, _, h⟩ := exec_cases i s <;> exact ⟨_, h⟩

/-- Settles O8: an admitted offset is a register's, whose read or write completes; at any other there is no register. -/
theorem onlyAdmittedAccessesStep : Obligations.OnlyAdmittedAccessesStep := by
  unfold Obligations.OnlyAdmittedAccessesStep
  rintro s ⟨write, off, width, data⟩
  constructor
  · rintro ⟨rfl, aligned, inside⟩
    obtain ⟨r, rfl⟩ := exists_offset_eq aligned inside
    cases write with
    | false => exact takeInput_read r data s ▸ exec_completes _ s
    | true => exact takeInput_write r data s ▸ exec_completes _ s
  · intro h
    obtain ⟨why, rejected⟩ := decodeAccess_rejected h
    exact ⟨why, by simp only [takeInput, hostTurn, decodeRequest, rejected]⟩

/-! ## Reserved offsets and fields, and ignored writes (R62) -/

/-- Only CTRL and TEMP take a write (R62, R204). -/
theorem exec_wrInstr_ignored (r : Reg) (v : Word) (s : State) (h : r ≠ .ctrl ∧ r ≠ .temp) :
    exec (wrInstr r v) s = .next s := by
  cases r with
  | ctrl => exact absurd rfl h.1
  | temp => exact absurd rfl h.2
  | _ => rfl

/-- The mask of the `len` bits of a word from bit `start` on. -/
def fieldMask (start len : Nat) : Word := (BitVec.allOnes len).setWidth 32 <<< start

/-- A field that reads 0 is 0 under its mask. -/
theorem and_fieldMask {w : Word} {start len : Nat} (h : w.extractLsb' start len = 0) : w &&& fieldMask start len = 0 := by
  ext i hi
  by_cases below : i < start
  · simp [fieldMask, below]
  · have clear : i - start < len → w[i] = false := by
      simpa [Nat.add_sub_cancel' (Nat.le_of_not_lt below), hi] using congrArg (·.getLsbD (i - start)) h
    by_cases inside : i - start < len
    · simp [clear inside]
    · simp [fieldMask, inside]

theorem status_reserved_bits (s : State) : regValue s .status &&& 0xFF00F0E0 = 0 := by
  obtain ⟨low, middle, high⟩ := statusWord_reserved s
  change statusWord s &&& (fieldMask 5 3 ||| fieldMask 12 4 ||| fieldMask 24 8) = 0
  simp only [BitVec.and_or_distrib_left, and_fieldMask low, and_fieldMask middle, and_fieldMask high]
  rfl

theorem raw_reserved_bits (s : State) : regValue s .raw &&& 0xFFFF0000 = 0 := by
  apply and_fieldMask (start := 16) (len := 16)
  ext i hi
  simp [regValue]

theorem crc_reserved_bits (s : State) : regValue s .crc &&& 0xFFFF0000 = 0 := by
  apply and_fieldMask (start := 16) (len := 16)
  simp only [regValue, crcWord, BitVec.extractLsb'_append_eq_ite]
  simp

theorem lastcmd_reserved_bits (s : State) : regValue s .lastcmd &&& 0xFFFFFC00 = 0 := by
  apply and_fieldMask (start := 10) (len := 22)
  simp only [regValue, lastcmdWord, BitVec.extractLsb'_append_eq_ite]
  simp

theorem pins_reserved_bits (s : State) : regValue s .pins &&& 0xFFFFFFE0 = 0 := by
  apply and_fieldMask (start := 5) (len := 27)
  simp only [regValue, pinsWord, BitVec.extractLsb'_append_eq_ite]
  simp

/-- Settles O13: the reserved offsets read 0 by the register map, and the rest register by register. -/
theorem reservedReadsZeroAndIgnoresWrites : Obligations.ReservedReadsZeroAndIgnoresWrites := by
  unfold Obligations.ReservedReadsZeroAndIgnoresWrites
  intro s v
  have ignored (r : Reg) (h : r ≠ .ctrl ∧ r ≠ .temp := by decide) := exec_wrInstr_ignored r v s h
  refine ⟨⟨rfl, rfl, rfl, rfl⟩, ⟨ignored .status, ignored .rxdata, ignored .raw, ignored .polls, ignored .crc,
    ignored .rhlLo, ignored .rhlHi, ignored .rhtLo, ignored .rhtHi, ignored .lastcmd, ignored .pins, ignored .rsvd34,
    ignored .rsvd38, ignored .rsvd3C⟩, ?_⟩
  exact ⟨status_reserved_bits s, raw_reserved_bits s, crc_reserved_bits s, lastcmd_reserved_bits s, pins_reserved_bits s⟩

end Sys2Proof.Machine
end

section
/-! CTRL words (`30_encoding.md` section 1): the bits a word's operation reads (R83), the rows of the opcode table (R84)
and the worked words (R85). -/

namespace Sys2Proof

open Machine

/-! ## Words under the masks of the opcode table (R84) -/

/-- A mask acts on the high and on the low part of a number by itself. -/
theorem and_eq_high_add_low (x m k : Nat) :
    x &&& m = (x / 2 ^ k &&& m / 2 ^ k) * 2 ^ k + (x % 2 ^ k &&& m % 2 ^ k) := by
  rw [← Nat.and_div_two_pow, ← Nat.and_mod_two_pow, Nat.div_add_mod']

theorem toNat_and_opMask (w : Word) : (w &&& 0x0000000F).toNat = (ctrlOp w).toNat := by
  rw [ctrlOp_toNat]
  exact Nat.and_two_pow_sub_one_eq_mod w.toNat 4

/-- The mask of the EXCH rows shows OP and N. -/
theorem toNat_and_exchMask (w : Word) :
    (w &&& 0x0003000F).toNat = (ctrlN w).toNat * 2 ^ 16 + (ctrlOp w).toNat := by
  rw [ctrlN_toNat, ctrlOp_toNat]
  calc (w &&& 0x0003000F).toNat
    _ = (w.toNat / 2 ^ 16 &&& 3) * 2 ^ 16 + (w.toNat % 2 ^ 16 &&& 15) := and_eq_high_add_low w.toNat 0x0003000F 16
    _ = w.toNat / 2 ^ 16 % 4 * 2 ^ 16 + w.toNat % 2 ^ 16 % 16 := by
      rw [Nat.and_two_pow_sub_one_eq_mod _ 2, Nat.and_two_pow_sub_one_eq_mod _ 4]
    _ = w.toNat / 2 ^ 16 % 4 * 2 ^ 16 + w.toNat % 16 := by omega

/-- The mask of the row of OP 8 to 15 shows the top bit of OP. -/
theorem toNat_and_highOpMask (w : Word) : (w &&& 0x00000008).toNat = (ctrlOp w).toNat / 8 * 8 := by
  rw [ctrlOp_toNat]
  calc (w &&& 0x00000008).toNat
    _ = (w.toNat / 2 ^ 3 &&& 1) * 2 ^ 3 + (w.toNat % 2 ^ 3 &&& 0) := and_eq_high_add_low w.toNat 0x00000008 3
    _ = w.toNat % 16 / 8 * 8 := by rw [Nat.and_one_is_mod, Nat.and_zero]; omega

/-! ## The rows of the opcode table (R84) -/

/-- The OP and, for EXCH, the N with which a word selects an operation (R81, R84). -/
def CtrlOp.SelectedBy (w : Word) : CtrlOp → Prop
  | .nop        => (ctrlOp w).toNat = 0
  | .exchN0 _   => (ctrlOp w).toNat = 1 ∧ (ctrlN w).toNat = 0
  | .exchN1 _   => (ctrlOp w).toNat = 1 ∧ (ctrlN w).toNat = 1
  | .exchN2 _   => (ctrlOp w).toNat = 1 ∧ (ctrlN w).toNat = 2
  | .illExchN3  => (ctrlOp w).toNat = 1 ∧ (ctrlN w).toNat = 3
  | .crcClr     => (ctrlOp w).toNat = 2
  | .crcAdd _   => (ctrlOp w).toNat = 3
  | .convT _    => (ctrlOp w).toNat = 4
  | .convRhl _  => (ctrlOp w).toNat = 5
  | .convRht _  => (ctrlOp w).toNat = 6
  | .illOp7     => (ctrlOp w).toNat = 7
  | .illOp8to15 => 8 ≤ (ctrlOp w).toNat

theorem decodeExch_selectedBy {w : Word} (op : (ctrlOp w).toNat = 1) : (decodeExch w).SelectedBy w := by
  unfold decodeExch
  split
  case h_4 =>
    have bound := (ctrlN w).isLt
    have three : (ctrlN w).toNat = 3 := by grind
    exact ⟨op, three⟩
  all_goals exact ⟨op, ‹_›⟩

theorem decodeCtrl_selectedBy (w : Word) : (decodeCtrl w).SelectedBy w := by
  unfold decodeCtrl
  split
  case h_2 op => exact decodeExch_selectedBy op
  case h_9 =>
    change 8 ≤ (ctrlOp w).toNat
    grind
  all_goals assumption

/-- A row of the opcode table matches a word exactly when it is the row of the operation the word decodes to. -/
theorem row_matches_eq_selected (w : Word) : ∀ r ∈ ctrlRows, (w &&& r.2.1 == r.1) = r.2.2 (decodeCtrl w) := by
  have opBits := toNat_and_opMask w
  have exchBits := toNat_and_exchMask w
  have highOpBit := toNat_and_highOpMask w
  have bound := (ctrlOp w).isLt
  have selected := decodeCtrl_selectedBy w
  cases h : decodeCtrl w
  all_goals
    rw [h] at selected
    simp [ctrlRows, CtrlOp.SelectedBy, BitVec.toNat_eq, -BitVec.toNat_and] at *
    omega

theorem exists_one_row (o : CtrlOp) : ∃ row, ctrlRows.filter (fun r => r.2.2 o) = [row] ∧ row.2.2 o = true := by
  cases o <;> exact ⟨_, rfl, rfl⟩

/-- Settles O3: the rows that match a word are the rows of its operation, and every operation has exactly one. -/
theorem ctrlRowsPartitionAllWords : Obligations.CtrlRowsPartitionAllWords := by
  unfold Obligations.CtrlRowsPartitionAllWords
  intro w
  rw [List.filter_congr (row_matches_eq_selected w)]
  exact exists_one_row (decodeCtrl w)

/-! ## Ignored bits (R83) -/

/-- Two words that agree under a mask agree on every field the mask covers. -/
theorem extractLsb'_congr_of_mask {w w' m : Word} {start len : Nat} (same : w &&& m = w' &&& m)
    (covers : m.extractLsb' start len = BitVec.allOnes len) : w.extractLsb' start len = w'.extractLsb' start len := by
  simpa [BitVec.extractLsb'_and, covers] using congrArg (·.extractLsb' start len) same

theorem decodeExch_congr {w w' : Word} (n : ctrlN w = ctrlN w') (arg8 : ctrlArg8 w = ctrlArg8 w') :
    decodeExch w = decodeExch w' := by
  unfold decodeExch
  rw [n, arg8]

/-- Two words with one OP select the same operation if they agree on the operand that OP reads. -/
theorem decodeCtrl_congr {w w' : Word} (op : ctrlOp w = ctrlOp w')
    (exch : (ctrlOp w).toNat = 1 → decodeExch w = decodeExch w')
    (arg8 : (ctrlOp w).toNat = 3 → ctrlArg8 w = ctrlArg8 w')
    (arg16 : 4 ≤ (ctrlOp w).toNat ∧ (ctrlOp w).toNat ≤ 6 → ctrlArg16 w = ctrlArg16 w') :
    decodeCtrl w = decodeCtrl w' := by
  unfold decodeCtrl
  rw [← op]
  split
  case h_2 h => exact exch h
  case h_4 h => rw [arg8 h]
  case h_5 h => rw [arg16 (by omega)]
  case h_6 h => rw [arg16 (by omega)]
  case h_7 h => rw [arg16 (by omega)]
  all_goals rfl

/-- Settles O4: the bits each clause fixes are those the decoder reads, and `exec` sees only what it decodes. -/
theorem unreadCtrlBitsAreIgnored : Obligations.UnreadCtrlBitsAreIgnored := by
  unfold Obligations.UnreadCtrlBitsAreIgnored
  intro w w' s same
  have op : ctrlOp w = ctrlOp w' := extractLsb'_congr_of_mask same (by decide)
  have opBits := toNat_and_opMask w
  have performs (h : decodeCtrl w = decodeCtrl w') : exec (.wrCtrl w) s = exec (.wrCtrl w') s :=
    congrArg (performCtrl · s) h
  refine ⟨fun h => performs ?_, fun h fields => performs ?_, fun h fields => performs ?_, fun h fields => performs ?_⟩
  · exact decodeCtrl_congr op (by bv_omega) (by bv_omega) (by bv_omega)
  · have n : ctrlN w = ctrlN w' := extractLsb'_congr_of_mask fields (by decide)
    have arg8 : ctrlArg8 w = ctrlArg8 w' := extractLsb'_congr_of_mask fields (by decide)
    exact decodeCtrl_congr op (fun _ => decodeExch_congr n arg8) (fun _ => arg8) (by bv_omega)
  · have arg8 : ctrlArg8 w = ctrlArg8 w' := extractLsb'_congr_of_mask fields (by decide)
    exact decodeCtrl_congr op (by bv_omega) (fun _ => arg8) (by bv_omega)
  · have arg16 : ctrlArg16 w = ctrlArg16 w' := extractLsb'_congr_of_mask fields (by decide)
    exact decodeCtrl_congr op (by bv_omega) (by bv_omega) (fun _ => arg16)

/-! ## Worked words (R85) -/

/-- A word's lanes, as a request of four bytes, stand for the operation the word selects (R70, R90). -/
theorem decode_lanes_ctrl (w : Word) : decode (lanes w) = .ok (decodeCtrl w).instr := by
  simp only [decode, lanes, ofLanes_lanes]

/-- Settles O2: each word's fields select the operation R85 names. -/
theorem workedCtrlWordsDecode : Obligations.WorkedCtrlWordsDecode := by
  unfold Obligations.WorkedCtrlWordsDecode
  simp only [decode_lanes_ctrl]
  decide

end Sys2Proof
end

section
/-! The CRC unit (`40_crc.md`): the laws of the CRC functions (R103) and the two operations on the accumulator (R104,
R105). -/

namespace Sys2Proof.Machine

/-! ## The laws of the CRC functions (R103) -/

/-- One bit of the generator is linear: the polynomial is xored in when exactly one of the two top bits is 1. -/
theorem crcShift_xor (a b : Byte) : crcShift (a ^^^ b) = crcShift a ^^^ crcShift b := by
  unfold crcShift
  rw [BitVec.msb_xor, BitVec.shiftLeft_xor_distrib]
  cases a.msb <;> cases b.msb
  case false.false => rfl
  case false.true => exact BitVec.xor_assoc ..
  case true.false =>
    change (a <<< 1 ^^^ b <<< 1) ^^^ 0x31#8 = (a <<< 1 ^^^ 0x31#8) ^^^ b <<< 1
    ac_rfl
  case true.true =>
    calc a <<< 1 ^^^ b <<< 1
      _ = (a <<< 1 ^^^ b <<< 1) ^^^ (0x31#8 ^^^ 0x31#8) := (BitVec.xor_zero).symm
      _ = (a <<< 1 ^^^ 0x31#8) ^^^ (b <<< 1 ^^^ 0x31#8) := by ac_rfl

theorem crcGenerate_xor (a b : Byte) : crcGenerate (a ^^^ b) = crcGenerate a ^^^ crcGenerate b := by
  simp only [crcGenerate, crcShift_xor]

/-- The table of R101, read at a byte, is the generator's value. -/
theorem crcEntry_eq_crcGenerate : ∀ b : Byte, crcEntry b = crcGenerate b := by decide

theorem crcEntry_xor (a b : Byte) : crcEntry (a ^^^ b) = crcEntry a ^^^ crcEntry b := by
  simp only [crcEntry_eq_crcGenerate, crcGenerate_xor]

theorem crcFold_eq_foldl (a : Byte) (bs : List Byte) : crcFold a bs = bs.foldl crcStep a := by
  induction bs generalizing a with
  | nil => rfl
  | cons b bs ih => exact ih (crcStep a b)

theorem crcFold_append (a : Byte) (bs cs : List Byte) : crcFold a (bs ++ cs) = crcFold (crcFold a bs) cs := by
  simp only [crcFold_eq_foldl, List.foldl_append]

/-- A zero byte leaves the cleared accumulator 0, since entry 0 of the table is 0. -/
theorem crc_replicate_zero (n : Nat) : crc (List.replicate n 0) = 0 := by
  induction n with
  | zero => rfl
  | succ n ih => exact ih

/-- Settles O27: the table is its generator's, which is linear bit by bit, and folding a sequence is a list fold. -/
theorem crcLaws : Obligations.CrcLaws := by
  unfold Obligations.CrcLaws
  exact ⟨crcEntry_xor, crc_replicate_zero, crcFold_append, by decide, by decide⟩

/-! ## CRC_CLR and CRC_ADD (R104, R105) -/

/-- A CTRL write is the operation its word selects (R22, R204). -/
theorem exec_wrCtrl (w : Word) (s : State) : exec (.wrCtrl w) s = exec (decodeCtrl w).instr s := by
  change performCtrl (decodeCtrl w) s = _
  cases decodeCtrl w <;> rfl

theorem decodeCtrl_of_op_two {w : Word} (op : w.toNat % 16 = 2) : decodeCtrl w = .crcClr := by
  rw [← ctrlOp_toNat] at op
  simp only [decodeCtrl, op]

theorem decodeCtrl_of_op_three {w : Word} (op : w.toNat % 16 = 3) :
    decodeCtrl w = .crcAdd (BitVec.ofNat 8 (w.toNat / 2 ^ 8)) := by
  rw [← ctrlOp_toNat] at op
  simp only [decodeCtrl, op, ctrlArg8_eq]

/-- Settles O24: a CTRL word with OP 2 or 3 selects CRC_CLR or CRC_ADD, and these write ACC alone. -/
theorem crcOperationsWriteTheAccumulator : Obligations.CrcOperationsWriteTheAccumulator := by
  unfold Obligations.CrcOperationsWriteTheAccumulator
  intro s b w
  refine ⟨rfl, rfl, fun op => ?_, fun op => ?_⟩
  · rw [exec_wrCtrl, decodeCtrl_of_op_two op]
    rfl
  · rw [exec_wrCtrl, decodeCtrl_of_op_three op]
    rfl

end Sys2Proof.Machine
end

section
/-! Directions of the lines (`41_protocol.md` rule R143): the mirrors show what the phase rules have set, so the engine
meets the GpioLine contract. -/

namespace Sys2Proof.Machine

theorem three_bits_cases (k : BitVec 3) : k = 0 ∨ k = 1 ∨ k = 2 ∨ k = 3 ∨ k = 4 ∨ k = 5 ∨ k = 6 ∨ k = 7 := by
  decide +revert

/-- The operations each phase names, with the steps of those that move a direction (R123 to R135). -/
theorem phaseAct_line_cases {e : Engine} {o : LineOp} (h : phaseAct e = some (.line o)) :
    (e.phase = .setup ∧ (e.step = 0 ∧ o = .dir .sck .output ∨ e.step = 1 ∧ o = .dir .data .output ∨
      e.step = 2 ∧ o = .set .sck .low ∨ e.step = 3 ∧ o = .set .data .high)) ∨
    (e.phase = .start ∧ ∃ l v, o = .set l v) ∨
    (e.phase = .cmd ∧ ∃ l v, o = .set l v) ∨
    (e.phase = .ackrel ∧ (e.step = 0 ∧ o = .dir .data .input ∨ (e.step = 1 ∨ e.step = 2) ∧ ∃ v, o = .set .sck v)) ∨
    (e.phase = .poll ∧ o = .get .data) ∨
    (e.phase = .shiftin ∧ (o = .get .data ∨ ∃ v, o = .set .sck v)) ∨
    (e.phase = .rxack ∧ (e.step = 0 ∧ o = .dir .data .output ∨ e.step = 4 ∧ o = .dir .data .input ∨
      (e.step = 1 ∨ e.step = 2 ∨ e.step = 3) ∧ ∃ l v, o = .set l v)) ∨
    (e.phase = .final ∧ (e.step = 0 ∧ o = .dir .data .output ∨ e.step = 1 ∧ o = .set .data .high)) := by
  unfold phaseAct at h
  cases hp : e.phase <;> simp only [hp] at h
  all_goals
    obtain k | k | k | k | k | k | k | k := three_bits_cases e.step <;>
    simp [k, setupOps, startOps, cmdOps, ackrelOps, shiftinOps, rxackOps, finalOps] at h ⊢
  all_goals simp [← h]

/-! ## What the phase rules have set, before and after a step -/

/-- Only the first operation of SETUP moves the direction of SCK; before every other one SCK has been set Out (R123). -/
theorem sckConfigured_of_phaseAct {e : Engine} {o : LineOp} (act : phaseAct e = some (.line o)) :
    o = .dir .sck .output ∨ sckConfigured e = true ∧ ∀ d, o ≠ .dir .sck d := by
  obtain ⟨hp, ⟨k, rfl⟩ | ⟨k, rfl⟩ | ⟨k, rfl⟩ | ⟨k, rfl⟩⟩ | ⟨hp, l, w, rfl⟩ | ⟨hp, l, w, rfl⟩ | ⟨hp, step⟩ | ⟨hp, rfl⟩ |
    ⟨hp, op⟩ | ⟨hp, step⟩ | ⟨hp, step⟩ := phaseAct_line_cases act
  case inl.inl => exact .inl rfl
  all_goals refine .inr ⟨by simp [sckConfigured, *], fun d => ?_⟩
  all_goals grind

/-- The direction DATA has after a step is the one the step set, or the one it had (R123 to R135). -/
theorem dataConfigured_phaseEffect {s : State} {o : LineOp} {d : Direction} (a : Answer)
    (act : phaseAct s.eng = some (.line o)) (h : dataConfigured (phaseEffect a s).eng = some d) :
    o = .dir .data d ∨ dataConfigured s.eng = some d ∧ ∀ d', o ≠ .dir .data d' := by
  obtain ⟨hp, step⟩ | ⟨hp, l, w, rfl⟩ | ⟨hp, l, w, rfl⟩ | ⟨hp, step⟩ | ⟨hp, rfl⟩ | ⟨hp, op⟩ | ⟨hp, step⟩ | ⟨hp, step⟩ :=
    phaseAct_line_cases act <;> simp only [phaseEffect, hp] at h
  · unfold afterSetup at h
    obtain ⟨k, rfl⟩ | ⟨k, rfl⟩ | ⟨k, rfl⟩ | ⟨k, rfl⟩ := step <;> simp_all [dataConfigured]
  · unfold afterStart at h
    split at h <;> simp_all [dataConfigured]
  · unfold afterCmd at h
    split at h
    · split at h <;> simp_all [dataConfigured]
    · simp_all [dataConfigured]
  · unfold afterAckrel at h
    obtain ⟨k, rfl⟩ | ⟨k | k, w, rfl⟩ := step
    · simp_all [dataConfigured]
    · simp_all [dataConfigured]
    · rw [if_pos k] at h
      split at h <;> simp_all [dataConfigured]
  · cases a with
    | ok | ioErr => simp_all [dataConfigured]
    | lvl v =>
      cases v with
      | low => simp_all [dataConfigured, afterPoll, pollLow]
      | high =>
        simp only [afterPoll, pollHigh] at h
        split at h <;> simp_all [dataConfigured]
  · have kept : ∀ d', o ≠ .dir .data d' := by
      obtain rfl | ⟨w, rfl⟩ := op <;> nofun
    refine .inr ⟨?_, kept⟩
    unfold afterShiftin at h
    split at h <;> split at h <;> simp_all [dataConfigured]
  · unfold afterRxack at h
    obtain ⟨k, rfl⟩ | ⟨k, rfl⟩ | ⟨k | k | k, l, w, rfl⟩ := step
    case inr.inl =>
      rw [if_pos k] at h
      split at h <;> simp_all [dataConfigured]
    all_goals simp_all [dataConfigured]
  · unfold afterFinal at h
    obtain ⟨k, rfl⟩ | ⟨k, rfl⟩ := step <;> simp_all [dataConfigured, conclude]

/-- A level of DATA is set only once DATA is Out (R143). -/
theorem dataConfigured_of_set {e : Engine} {v : Level} (act : phaseAct e = some (.line (.set .data v))) :
    dataConfigured e = some .output := by
  obtain ⟨hp, step⟩ | ⟨hp, -⟩ | ⟨hp, -⟩ | ⟨hp, step⟩ | ⟨hp, op⟩ | ⟨hp, op⟩ | ⟨hp, step⟩ | ⟨hp, step⟩ :=
    phaseAct_line_cases act
  all_goals grind [dataConfigured]

/-- Only DATA is sampled, and only while it is In (R128, R143). -/
theorem dataConfigured_of_get {e : Engine} {l : Line} (act : phaseAct e = some (.line (.get l))) :
    l = .data ∧ dataConfigured e = some .input := by
  obtain ⟨hp, step⟩ | ⟨hp, _, _, op⟩ | ⟨hp, _, _, op⟩ | ⟨hp, step⟩ | ⟨hp, op⟩ | ⟨hp, op⟩ | ⟨hp, step⟩ | ⟨hp, step⟩ :=
    phaseAct_line_cases act
  all_goals grind [dataConfigured]

/-! ## The mirrors -/

/-- An operation on another line or of another kind leaves a line's direction (R66). -/
theorem mirror_sckDir_of_ne {o : LineOp} (h : ∀ d, o ≠ .dir .sck d) (a : Answer) (p : Pins) :
    (mirror o a p).sckDir = p.sckDir := by
  cases o with
  | dir l d =>
    cases l with
    | sck => exact absurd rfl (h d)
    | data => cases a <;> rfl
  | set l v => cases l <;> cases a <;> rfl
  | get l => cases l <;> cases a <;> rfl

theorem mirror_dataDir_of_ne {o : LineOp} (h : ∀ d, o ≠ .dir .data d) (a : Answer) (p : Pins) :
    (mirror o a p).dataDir = p.dataDir := by
  cases o with
  | dir l d =>
    cases l with
    | sck => cases a <;> rfl
    | data => exact absurd rfl (h d)
  | set l v => cases l <;> cases a <;> rfl
  | get l => cases l <;> cases a <;> rfl

/-- The phase rules move no mirror (R66). -/
theorem phaseEffect_pins (a : Answer) {s : State} (h : s.eng.phase ≠ .idle) : (phaseEffect a s).pins = s.pins := by
  obtain ⟨e, heq, -⟩ | ⟨-, heq⟩ | ⟨-, heq⟩ | ⟨-, heq⟩ | ⟨-, heq⟩ := phaseEffect_cases a s h <;> rw [heq] <;> rfl

/-! ## The invariant and the contract (R143) -/

/-- A state whose phase has set no direction. -/
theorem directionInv_of_unset {s : State} (sck : sckConfigured s.eng = false) (data : dataConfigured s.eng = none) :
    DirectionInv s := by
  simp [DirectionInv, sck, data]

theorem answerTo_dir_done {l : Line} {d : Direction} {r : EnvReply} (ok : answerTo (.dir l d) r ≠ .ioErr) :
    answerTo (.dir l d) r = .ok := by
  cases r with
  | done v => rfl
  | ioErr => exact absurd rfl ok

/-- A line operation answered without `IoErr`: the mirrors take the direction it sets, and the others stay. -/
theorem DirectionInv.after_phaseEffect {s : State} {o : LineOp} {r : EnvReply} (h : DirectionInv s)
    (act : phaseAct s.eng = some (.line o)) (ok : answerTo o r ≠ .ioErr) :
    DirectionInv (phaseEffect (answerTo o r) (observe o (answerTo o r) s)) := by
  obtain ⟨sck, data⟩ := h
  have running : (observe o (answerTo o r) s).eng.phase ≠ .idle := fun idle =>
    by simp [phaseAct_idle (e := s.eng) idle] at act
  rw [DirectionInv, phaseEffect_pins _ running, observe_pins]
  constructor
  · intro _
    obtain rfl | ⟨before, kept⟩ := sckConfigured_of_phaseAct act
    · rw [answerTo_dir_done ok]
      rfl
    · exact (mirror_sckDir_of_ne kept _ _).trans (sck before)
  · intro d after
    obtain rfl | ⟨before, kept⟩ := dataConfigured_phaseEffect (s := observe o (answerTo o r) s) _ act after
    · rw [answerTo_dir_done ok]
      rfl
    · exact (mirror_dataDir_of_ne kept _ _).trans (data d before)

/-- An engine step keeps the invariant (R121, R122, R129). -/
theorem DirectionInv.after_engineStep {r : EnvReply} {s t : State} (h : DirectionInv s)
    (hst : engineStep r s = .next t) : DirectionInv t := by
  obtain ⟨counts, ⟨-, hp, rfl⟩ | ⟨o, act, ⟨-, rfl⟩ | ⟨ok, rfl⟩⟩⟩ := engineStep_cases hst
  · simpa [DirectionInv, sckConfigured, dataConfigured, hp] using h
  · exact directionInv_of_unset rfl rfl
  · exact h.after_phaseEffect (engineAct_of_legal counts ▸ act) ok

/-- An instruction moves no mirror, and an exchange it starts has set no direction yet (R120, R144). -/
theorem DirectionInv.after_exec {i : Instr} {s t : State} (h : DirectionInv s) (hst : exec i s = .next t) :
    DirectionInv t := by
  obtain ⟨cmd, n, -, -, heq⟩ | ⟨ovr, ill, acc, temp, rhl, rht, reads, heq⟩ := exec_cases i s <;>
    (rw [heq] at hst; injection hst with hst; subst hst)
  · exact directionInv_of_unset rfl rfl
  · exact h

/-- Settles O50: an engine step that is owed a new direction has just set it; no other input moves a mirror. -/
theorem directionInvIsKept : Obligations.DirectionInvIsKept := by
  unfold Obligations.DirectionInvIsKept
  intro s t hs hst
  exact step_keeps (fun _ _ _ h => h) (fun _ _ _ h => h.after_exec) (fun _ _ _ h _ => h.after_engineStep)
    (fun _ _ => directionInv_of_unset rfl rfl) hs hst

/-- Settles O51: each operation falls in a step in which the directions it needs are configured. -/
theorem engineMeetsTheGpioContract : Obligations.EngineMeetsTheGpioContract := by
  unfold Obligations.EngineMeetsTheGpioContract
  refine ⟨directionInv_of_unset rfl rfl, fun s o ⟨sck, data⟩ act => ?_⟩
  rw [engineAct_of_legal (engineAct_counts act)] at act
  cases o with
  | dir l d => trivial
  | set l v =>
    cases l with
    | sck => exact sck ((sckConfigured_of_phaseAct act).resolve_left nofun).1
    | data => exact data _ (dataConfigured_of_set act)
  | get l =>
    obtain ⟨rfl, input⟩ := dataConfigured_of_get act
    exact data _ input

end Sys2Proof.Machine
end

section
/-! An EXCH that finds the block not busy (`41_protocol.md` rule R120). -/

namespace Sys2Proof.Machine

theorem ctrlN_eq (w : Word) : ctrlN w = BitVec.ofNat 2 (w.toNat / 2 ^ 16) := by
  apply BitVec.eq_of_toNat_eq
  rw [ctrlN_toNat, BitVec.toNat_ofNat]

/-- A word with OP 1 and a legal N starts the exchange of its ARG8 and N, or sets OVR (R81, R120, R202). -/
theorem exec_wrCtrl_exch {w : Word} (op : w.toNat % 16 = 1) (n : w.toNat / 2 ^ 16 % 4 ≠ 3) (s : State) :
    exec (.wrCtrl w) s =
      .next (startExchange (BitVec.ofNat 8 (w.toNat / 2 ^ 8)) (BitVec.ofNat 2 (w.toNat / 2 ^ 16)) s) := by
  rw [← ctrlOp_toNat] at op
  rw [← ctrlN_toNat] at n
  rw [exec_wrCtrl, ← ctrlArg8_eq, ← ctrlN_eq]
  simp only [decodeCtrl, op, decodeExch]
  have bound := (ctrlN w).isLt
  obtain h | h | h : (ctrlN w).toNat = 0 ∨ (ctrlN w).toNat = 1 ∨ (ctrlN w).toNat = 2 := by omega
  all_goals
    rw [h, show ctrlN w = BitVec.ofNat 2 (ctrlN w).toNat by simp, h]
    rfl

theorem startExchange_accepted {s : State} (idle : s.busy = false) (cmd : Byte) (n : BitVec 2) :
    startExchange cmd n s = acceptedExch cmd n s := by
  rw [startExchange, idle]
  rfl

/-- Settles O19: each of them is `startExchange`, which accepts while BUSY = 0. -/
theorem exchIsAcceptedWhenNotBusy : Obligations.ExchIsAcceptedWhenNotBusy := by
  unfold Obligations.ExchIsAcceptedWhenNotBusy
  intro s cmd idle
  have accepted (c : Byte) (n : BitVec 2) : (.next (startExchange c n s) : Answered) = .next (acceptedExch c n s) :=
    congrArg Host.Outcome.next (startExchange_accepted idle c n)
  exact ⟨accepted cmd 0, accepted cmd 1, accepted cmd 2,
    fun w op n => (exec_wrCtrl_exch op n s).trans (accepted _ _)⟩

end Sys2Proof.Machine
end

section
/-! The phases of an exchange (`41_protocol.md` rules R121 to R140): each runs its table of operations, whatever the
environment presents to make their answers. -/

namespace Sys2Proof.Machine

/-! ## Runs and the trace they leave -/

/-- A state with another trace. -/
def withTrace (lt : List LineEvent) (s : State) : State := { s with lt := lt }

@[simp] theorem withTrace_eng (lt : List LineEvent) (s : State) : (withTrace lt s).eng = s.eng := rfl

/-- No phase rule looks at the trace. -/
theorem phaseEffect_withTrace (a : Answer) (lt : List LineEvent) (s : State) :
    phaseEffect a (withTrace lt s) = withTrace lt (phaseEffect a s) := by
  simp only [phaseEffect, withTrace_eng]
  cases s.eng.phase with
  | idle | wait => rfl
  | setup => simp only [afterSetup, apply_ite (withTrace lt)]; rfl
  | start => simp only [afterStart, apply_ite (withTrace lt)]; rfl
  | cmd => simp only [afterCmd, apply_ite (withTrace lt)]; rfl
  | ackrel => simp only [afterAckrel, apply_ite (withTrace lt)]; rfl
  | poll =>
    cases a with
    | ok | ioErr => rfl
    | lvl v =>
      cases v with
      | low => rfl
      | high => simp only [afterPoll, pollHigh, apply_ite (withTrace lt)]; rfl
  | shiftin => cases a <;> simp only [afterShiftin, apply_ite (withTrace lt)] <;> rfl
  | rxack => simp only [afterRxack, apply_ite (withTrace lt)]; rfl
  | final => simp only [afterFinal, apply_ite (withTrace lt)]; rfl

/-- From `s` the engine's run appends exactly `evs` to whatever trace there is and ends in `t` but for the trace, whatever
the environment presents to make the answers of `evs` (R66, R121). -/
def Yields (s : State) (evs : List LineEvent) (t : State) : Prop :=
  ∀ lt replies, List.Forall₂ presents evs replies →
    engineRun replies (withTrace lt s) = .next (withTrace (lt ++ evs) t)

/-- The engine at a step of a phase, with the mirrors as given. -/
def atStep (p : Phase) (k : BitVec 3) (pins : Pins) (s : State) : State :=
  { s with pins := pins, eng := { s.eng with phase := p, step := k } }

theorem eq_atStep {s : State} {p : Phase} {k : BitVec 3} (hp : s.eng.phase = p) (hk : s.eng.step = k) :
    s = atStep p k s.pins s := by
  subst hp hk
  rfl

namespace Yields

theorem nil (s : State) : Yields s [] s := by
  intro lt replies hr
  cases hr
  rw [List.append_nil]
  rfl

/-- One run after another. -/
theorem append {s t u : State} {evs evs' : List LineEvent} (h : Yields s evs t) (h' : Yields t evs' u) :
    Yields s (evs ++ evs') u := by
  intro lt replies hr
  have hr₁ : List.Forall₂ presents evs (replies.take evs.length) := by
    simpa using List.forall₂_take evs.length hr
  have hr₂ : List.Forall₂ presents evs' (replies.drop evs.length) := by
    simpa using List.forall₂_drop evs.length hr
  rw [← List.take_append_drop evs.length replies, engineRun_append _ _ _ _ (h lt _ hr₁), h' _ _ hr₂, List.append_assoc]

/-- A step that issues an operation, answered without `IoErr`, comes first (R121). -/
theorem line {s t u : State} {o : LineOp} {a : Answer} {evs : List LineEvent} (hc : CountsLegal s.eng)
    (act : phaseAct s.eng = some (.line o)) (eff : phaseEffect a { s with pins := mirror o a s.pins } = t)
    (h : Yields t evs u) (ok : a ≠ .ioErr := by nofun) : Yields s (.op o a :: evs) u := by
  intro lt replies hr
  obtain _ | @⟨_, r, _, rs, rfl, hrs⟩ := hr
  have step : lineStep o (answerTo o r) (withTrace lt s) = withTrace (lt ++ [.op o (answerTo o r)]) t := by
    rw [lineStep, if_neg ok, ← eff]
    exact phaseEffect_withTrace _ (lt ++ [.op o (answerTo o r)]) { s with pins := mirror o (answerTo o r) s.pins }
  rw [engineRun_line (s := withTrace lt s) r rs hc act, step, h _ rs hrs, List.append_assoc]
  rfl

/-- The last operation of a phase (R121). -/
theorem last {s t : State} {o : LineOp} {a : Answer} (hc : CountsLegal s.eng)
    (act : phaseAct s.eng = some (.line o)) (eff : phaseEffect a { s with pins := mirror o a s.pins } = t)
    (ok : a ≠ .ioErr := by nofun) : Yields s [.op o a] t :=
  .line hc act eff (.nil t) ok

/-- An operation that is not the last of its phase, answered Ok: `E.STEP <- E.STEP + 1`. Both equations are the phase's own
rules, evaluated at the step. -/
theorem next {s u : State} {p : Phase} {k : BitVec 3} {pins : Pins} {o : LineOp} {evs : List LineEvent}
    (hc : CountsLegal s.eng) (act : phaseAct (atStep p k pins s).eng = some (.line o))
    (eff : phaseEffect .ok (atStep p k (mirror o .ok pins) s) = atStep p (k + 1) (mirror o .ok pins) s)
    (h : Yields (atStep p (k + 1) (mirror o .ok pins) s) evs u) : Yields (atStep p k pins s) (.op o .ok :: evs) u :=
  .line hc act eff h

/-- A run from the trace its first state has. -/
theorem run {s t : State} {evs : List LineEvent} (h : Yields s evs t) {replies : List EnvReply}
    (hr : List.Forall₂ presents evs replies) : engineRun replies s = .next (withTrace (s.lt ++ evs) t) :=
  h s.lt replies hr

end Yields

/-! ## SETUP and START (R123, R124) -/

/-- SETUP's table. -/
theorem setup_yields {s : State} {pins : Pins} (hc : CountsLegal s.eng) :
    Yields (atStep .setup 0 pins s) setupTrace (atStep .start 0
      { pins with sckDir := .output, dataDir := .output, sckLvl := .low, dataLvl := .high } s) :=
  .next hc rfl rfl <| .next hc rfl rfl <| .next hc rfl rfl <| .last hc rfl rfl

/-- Settles O35: SETUP's table is run. -/
theorem setupPhase : Obligations.SetupPhase := by
  unfold Obligations.SetupPhase
  intro s a b c d hc hp hk
  rw [eq_atStep hp hk]
  exact (setup_yields hc).run (.cons rfl <| .cons rfl <| .cons rfl <| .cons rfl .nil)

/-- START's table. -/
theorem start_yields {s : State} {pins : Pins} (hc : CountsLegal s.eng) :
    Yields (atStep .start 0 pins s) startTrace
      (atStep .cmd 0 { pins with sckLvl := .low, dataLvl := .low } { s with eng := { s.eng with bit := 7 } }) :=
  .next hc rfl rfl <| .next hc rfl rfl <| .next hc rfl rfl <| .next hc rfl rfl <| .next hc rfl rfl <|
    .next hc rfl rfl <| .last hc rfl rfl

/-- Settles O36: START's table is run. -/
theorem startPhase : Obligations.StartPhase := by
  unfold Obligations.StartPhase
  intro s a b c d e f g hc hp hk
  rw [eq_atStep hp hk]
  exact (start_yields hc).run
    (.cons rfl <| .cons rfl <| .cons rfl <| .cons rfl <| .cons rfl <| .cons rfl <| .cons rfl .nil)

/-! ## CMD (R125) -/

/-- CMD at the start of a bit (R125). -/
def cmdBit (b : BitVec 3) (pins : Pins) (s : State) : State :=
  atStep .cmd 0 pins { s with eng := { s.eng with bit := b } }

/-- The mirrors after a bit of the command. -/
def driveBit (b : Bool) (pins : Pins) : Pins := { pins with dataLvl := levelOfBit b, sckLvl := .low }

/-- One bit of the command on the lines, 3 operations (R141). -/
def cmdBitTrace (b : Bool) : List LineEvent := okEvent (.set .data (levelOfBit b)) :: pulseTrace

theorem cmdBit_yields_next {s : State} {pins : Pins} (hc : CountsLegal s.eng) (b : BitVec 3) (hb : b ≠ 0) :
    Yields (cmdBit b pins s) (cmdBitTrace (s.eng.cmd.getLsbD b.toNat))
      (cmdBit (b - 1) (driveBit (s.eng.cmd.getLsbD b.toNat) pins) s) :=
  .next hc rfl rfl <| .next hc rfl rfl <| .last hc rfl (if_neg hb)

theorem cmdBit_yields_last {s : State} {pins : Pins} (hc : CountsLegal s.eng) {b : BitVec 3} (hb : b = 0) :
    Yields (cmdBit b pins s) (cmdBitTrace (s.eng.cmd.getLsbD b.toNat))
      (atStep .ackrel 0 (driveBit (s.eng.cmd.getLsbD b.toNat) pins) { s with eng := { s.eng with bit := b } }) :=
  .next hc rfl rfl <| .next hc rfl rfl <| .last hc rfl (if_pos hb)

/-- Settles O37: the bit is bit 0, which is the last, or another one. -/
theorem commandBit : Obligations.CommandBit := by
  unfold Obligations.CommandBit
  intro s a b c hc hp hk
  have answered : List.Forall₂ presents (cmdBitTrace (s.eng.cmd.getLsbD s.eng.bit.toNat)) [.done a, .done b, .done c] :=
    .cons rfl <| .cons rfl <| .cons rfl .nil
  by_cases hb : s.eng.bit = 0
  · rw [if_pos hb, eq_atStep hp hk]
    exact (cmdBit_yields_last hc hb).run answered
  · rw [if_neg hb, eq_atStep hp hk]
    exact (cmdBit_yields_next hc s.eng.bit hb).run answered

/-! ## ACKREL and WAIT (R126, R127, R129) -/

/-- ACKREL's table, a response expected. -/
theorem ackrel_yields_wait {s : State} {pins : Pins} (hc : CountsLegal s.eng) (hn : s.eng.n ≠ 0) :
    Yields (atStep .ackrel 0 pins s) ackrelTrace (atStep .wait 2 { pins with dataDir := .input, sckLvl := .low } s) :=
  .next hc rfl rfl <| .next hc rfl rfl <| .last hc rfl (if_neg hn)

/-- ACKREL's table, no response expected. -/
theorem ackrel_yields_final {s : State} {pins : Pins} (hc : CountsLegal s.eng) (hn : s.eng.n = 0) :
    Yields (atStep .ackrel 0 pins s) ackrelTrace (atStep .final 0 { pins with dataDir := .input, sckLvl := .low } s) :=
  .next hc rfl rfl <| .next hc rfl rfl <| .last hc rfl (if_pos hn)

/-- Settles O38: `E.STEP` keeps its 2 on entering WAIT. -/
theorem acknowledgmentRelease : Obligations.AcknowledgmentRelease := by
  unfold Obligations.AcknowledgmentRelease
  intro s a b c hc hp hk
  have answered : List.Forall₂ presents ackrelTrace [.done a, .done b, .done c] := .cons rfl <| .cons rfl <| .cons rfl .nil
  refine ⟨2, ?_⟩
  by_cases hn : s.eng.n = 0
  · rw [if_pos hn, eq_atStep hp hk]
    exact (ackrel_yields_final hc hn).run answered
  · rw [if_neg hn, eq_atStep hp hk]
    exact (ackrel_yields_wait hc hn).run answered

/-- Settles O39: in WAIT the engine lets the delay pass. -/
theorem waitPhase : Obligations.WaitPhase := by
  unfold Obligations.WaitPhase
  intro s r hc hp
  simp only [engineStep, engineAct_wait hc hp]
  rfl

/-! ## The end of an exchange (R122, R135 to R140) -/

theorem answerTo_ioErr (o : LineOp) : answerTo o .ioErr = .ioErr := by
  cases o <;> rfl

/-- An operation that fails moves no mirror (R66). -/
theorem mirror_ioErr (o : LineOp) (p : Pins) : mirror o .ioErr p = p := by
  cases o with
  | dir l d => cases l <;> rfl
  | set l v => cases l <;> rfl
  | get l => cases l <;> rfl

/-- The end of an exchange without a verdict publishes nothing (R140). -/
theorem finish_unpublished {res : Result} {s : State} (h : publishes res s.eng.n = false) :
    finish res s = { s with
      result := res, valid := false, done := true, busy := false, eng := { s.eng with phase := .idle, step := 0 } } := by
  simp only [finish, h, Bool.false_eq_true, if_false]

/-- Settles O44: a failed operation moves no mirror, and IO_ERROR publishes nothing. -/
theorem ioErrEndsTheExchange : Obligations.IoErrEndsTheExchange := by
  unfold Obligations.IoErrEndsTheExchange
  intro s o act
  calc engineStep .ioErr s
    _ = .next (finish .ioError (observe o .ioErr s)) := by
      simp only [engineStep, act, answerTo_ioErr, lineStep, if_true]
    _ = _ := by
      rw [finish_unpublished rfl, observe, mirror_ioErr]

/-- The end of FINAL without a payload (R135, R138). -/
theorem conclude_of_n_zero {s : State} (hn : s.eng.n = 0) :
    conclude s = { s with
      result := .success, valid := false, done := true, busy := false
      eng := { s.eng with phase := .idle, step := 0, crc := crc [s.eng.cmd] } } := by
  have bytes : exchangeCrc s.eng = crc [s.eng.cmd] := by rw [exchangeCrc, payload, hn]; rfl
  rw [conclude_eq, verdict, if_pos hn, finish_unpublished (by simp [publishes, hn]), bytes]

/-- The end of FINAL with a payload: the verdict and the bytes (R135, R137 to R140). -/
theorem conclude_of_n_ne_zero {s : State} (hn : s.eng.n ≠ 0) :
    conclude s = { s with
      result := if rev8 (exchangeCrc s.eng) = checksumByte s.eng then .success else .checksumMismatch
      rxdata := rev8 (exchangeCrc s.eng) ++ checksumByte s.eng ++ (if s.eng.n = 2 then s.eng.buf1 else 0) ++ s.eng.buf0
      raw := rawWord s.eng, valid := true, done := true, busy := false
      eng := { s.eng with phase := .idle, step := 0, crc := exchangeCrc s.eng } } := by
  have published := (publishes_iff _ _).mpr ⟨verdict_cases { s.eng with crc := exchangeCrc s.eng }, hn⟩
  rw [conclude_eq, finish, if_pos published, if_pos published, published, verdict, if_neg hn]
  rfl

/-- The end of FINAL with one payload byte. -/
theorem conclude_of_n_one {s : State} (hn : s.eng.n = 1) :
    conclude s = { s with
      result := if rev8 (crc [s.eng.cmd, s.eng.buf0]) = s.eng.buf1 then .success else .checksumMismatch
      rxdata := rev8 (crc [s.eng.cmd, s.eng.buf0]) ++ s.eng.buf1 ++ 0x00#8 ++ s.eng.buf0
      raw := 0x00#8 ++ s.eng.buf0, valid := true, done := true, busy := false
      eng := { s.eng with phase := .idle, step := 0, crc := crc [s.eng.cmd, s.eng.buf0] } } := by
  have bytes : exchangeCrc s.eng = crc [s.eng.cmd, s.eng.buf0] := by rw [exchangeCrc, payload, hn]; rfl
  have checksum : checksumByte s.eng = s.eng.buf1 := by rw [checksumByte, hn]; rfl
  have raw : rawWord s.eng = 0x00#8 ++ s.eng.buf0 := by
    rw [rawWord, hn]
    exact BitVec.setWidth_eq_append (by decide)
  rw [conclude_of_n_ne_zero (by rw [hn]; decide), bytes, checksum, raw, hn]
  rfl

/-- The end of FINAL with two payload bytes. -/
theorem conclude_of_n_two {s : State} (hn : s.eng.n = 2) :
    conclude s = { s with
      result := if rev8 (crc [s.eng.cmd, s.eng.buf0, s.eng.buf1]) = s.eng.buf2 then .success else .checksumMismatch
      rxdata := rev8 (crc [s.eng.cmd, s.eng.buf0, s.eng.buf1]) ++ s.eng.buf2 ++ s.eng.buf1 ++ s.eng.buf0
      raw := s.eng.buf0 ++ s.eng.buf1, valid := true, done := true, busy := false
      eng := { s.eng with phase := .idle, step := 0, crc := crc [s.eng.cmd, s.eng.buf0, s.eng.buf1] } } := by
  have bytes : exchangeCrc s.eng = crc [s.eng.cmd, s.eng.buf0, s.eng.buf1] := by rw [exchangeCrc, payload, hn]; rfl
  have checksum : checksumByte s.eng = s.eng.buf2 := by rw [checksumByte, hn]; rfl
  have raw : rawWord s.eng = s.eng.buf0 ++ s.eng.buf1 := by rw [rawWord, hn]; rfl
  rw [conclude_of_n_ne_zero (by rw [hn]; decide), bytes, checksum, raw, if_pos hn]

/-- FINAL's table (R135). -/
theorem final_yields {s : State} {pins : Pins} (hc : CountsLegal s.eng) :
    Yields (atStep .final 0 pins s) finalTrace
      (conclude (atStep .final 1 { pins with dataDir := .output, dataLvl := .high } s)) :=
  .next hc rfl rfl <| .last hc rfl rfl

/-- Settles O43: FINAL's table, and what `conclude` writes for each payload count. -/
theorem finalPhase : Obligations.FinalPhase := by
  unfold Obligations.FinalPhase
  intro s a b hp hk hb
  have ends (t : State) (hn : s.eng.n ≤ 2)
      (ht : conclude (atStep .final 1 { s.pins with dataDir := .output, dataLvl := .high } s) = t) :
      engineRun [.done a, .done b] s = .next (withTrace (s.lt ++ finalTrace) t) := by
    rw [← ht, eq_atStep hp hk]
    exact (final_yields ⟨hn, hb⟩).run (.cons rfl <| .cons rfl .nil)
  exact ⟨fun hn => ends _ (by simp [hn]) (conclude_of_n_zero hn), fun hn => ends _ (by simp [hn]) (conclude_of_n_one hn),
    fun hn => ends _ (by simp [hn]) (conclude_of_n_two hn)⟩

/-! ## POLL (R130, R131) -/

theorem pollBoundReached_iff {limit : Option PollBound} {p : Word} :
    pollBoundReached limit p = true ↔ ∃ n, limit = some n ∧ n.val.toNat ≤ p.toNat := by
  cases limit <;> simp [pollBoundReached, BitVec.le_def]

/-- A High below the bound keeps the engine in POLL. -/
theorem pollHigh_below {s : State} (below : ∀ n, s.pollLimit = some n → (countPoll s.polls).toNat < n.val.toNat) :
    pollHigh s = { s with polls := countPoll s.polls } :=
  if_neg fun reached =>
    let ⟨n, hn, hle⟩ := pollBoundReached_iff.mp reached
    Nat.not_le.mpr (below n hn) hle

/-- At the bound a High ends the exchange. -/
theorem pollHigh_reached {s : State} {n : PollBound} (hn : s.pollLimit = some n)
    (reached : n.val.toNat ≤ (countPoll s.polls).toNat) :
    pollHigh s = finish .timeout { s with polls := countPoll s.polls } :=
  if_pos (pollBoundReached_iff.mpr ⟨n, hn, reached⟩)

/-- Settles O40: a poll is counted, and a High ends the exchange only at the bound. -/
theorem pollPhase : Obligations.PollPhase := by
  unfold Obligations.PollPhase
  intro s hc hp
  have act : phaseAct s.eng = some (.line (.get .data)) := by simp only [phaseAct, hp]
  have issued (v : Level) : engineStep (.done v) s = .next (afterPoll v (observe (.get .data) (.lvl v) s)) := by
    rw [engineStep_line _ hc act, answerTo, lineStep, if_neg nofun, phaseEffect]
    simp only [observe_eng, hp]
  refine ⟨countPoll s.polls, countPoll_toNat _, issued .low, fun below => ?_, fun n hn reached => ?_, ?_⟩
  · rw [issued, afterPoll, pollHigh_below (s := observe _ _ s) below]
    rfl
  · rw [issued, afterPoll, pollHigh_reached (s := observe _ _ s) hn reached, finish_unpublished rfl]
    rfl
  · exact ioErrEndsTheExchange s (.get .data) ((engineAct_of_legal hc).trans act)

/-! ## SHIFTIN (R132) -/

/-- `E.BUF[j] <- b`, element by element (R132). -/
def buffered (e : Engine) (j : BitVec 2) (b : Byte) : Engine :=
  { e with
      buf0 := if j = 0 then b else e.buf0
      buf1 := if j = 1 then b else e.buf1
      buf2 := if j = 2 then b else e.buf2 }

theorem setBuf_eq_buffered (e : Engine) {j : BitVec 2} (hj : j ≤ 2) (b : Byte) : setBuf e j b = buffered e j b := by
  obtain rfl | rfl | rfl : j = 0 ∨ j = 1 ∨ j = 2 := by decide +revert
  all_goals rfl

theorem storeByte_eq {s : State} (hb : s.eng.byte ≤ 2) :
    storeByte s = atStep .rxack 0 s.pins { s with eng := buffered s.eng s.eng.byte s.eng.sr } := by
  rw [storeByte, setBuf_eq_buffered _ hb]
  rfl

/-- SHIFTIN at the start of a bit, with what has been shifted in (R132). -/
def sampleBit (b : BitVec 3) (sr : Byte) (pins : Pins) (s : State) : State :=
  atStep .shiftin 0 pins { s with eng := { s.eng with bit := b, sr := sr } }

/-- One bit of a response byte on the lines, 3 operations (R141). -/
def sampleTrace (v : Level) : List LineEvent :=
  [okEvent (.set .sck .high), .op (.get .data) (.lvl v), okEvent (.set .sck .low)]

theorem sampleBit_yields_next {s : State} {pins : Pins} (hc : CountsLegal s.eng) (b : BitVec 3) (hb : b ≠ 0) (sr : Byte)
    (v : Level) :
    Yields (sampleBit b sr pins s) (sampleTrace v)
      (sampleBit (b - 1) (shiftBit sr v) { pins with dataIn := v, sckLvl := .low } s) :=
  .next hc rfl rfl <| .line hc rfl rfl <| .last hc rfl (if_neg hb)

/-- After the last bit the byte is stored and its acknowledgment follows. -/
theorem sampleBit_yields_last {s : State} {pins : Pins} (hc : CountsLegal s.eng) {b : BitVec 3} (hb : b = 0) (sr : Byte)
    (v : Level) :
    Yields (sampleBit b sr pins s) (sampleTrace v)
      (atStep .rxack 0 { pins with dataIn := v, sckLvl := .low }
        { s with eng := buffered { s.eng with bit := b, sr := shiftBit sr v } s.eng.byte (shiftBit sr v) }) :=
  .next hc rfl rfl <| .line hc rfl rfl <| .last hc rfl <|
    (if_pos hb).trans (storeByte_eq (BitVec.le_trans hc.2 hc.1))

theorem shiftBit_toNat (sr : Byte) (v : Level) :
    (shiftBit sr v).toNat = (2 * sr.toNat + if v = .high then 1 else 0) % 256 := by
  cases v <;> simp [shiftBit, bitOfLevel] <;> omega

/-- Settles O41: the bit is bit 0, after which the byte is stored, or another one. -/
theorem shiftInBit : Obligations.ShiftInBit := by
  unfold Obligations.ShiftInBit
  intro s a v c hc hp hk
  have answered : List.Forall₂ presents (sampleTrace v) [.done a, .done v, .done c] :=
    .cons rfl <| .cons rfl <| .cons rfl .nil
  refine ⟨shiftBit s.eng.sr v, shiftBit_toNat _ _, ?_⟩
  by_cases hb : s.eng.bit = 0
  · rw [if_pos hb, eq_atStep hp hk]
    exact (sampleBit_yields_last hc hb s.eng.sr v).run answered
  · rw [if_neg hb, eq_atStep hp hk]
    exact (sampleBit_yields_next hc s.eng.bit hb s.eng.sr v).run answered

/-! ## RXACK (R133, R134) -/

/-- The acknowledgment of a byte, 5 operations (R141). -/
def rxackTrace : List LineEvent :=
  [okEvent (.dir .data .output), okEvent (.set .data .low), okEvent (.set .sck .high), okEvent (.set .sck .low),
   okEvent (.dir .data .input)]

/-- RXACK's table, another byte to follow. -/
theorem rxack_yields_next {s : State} {pins : Pins} (hc : CountsLegal s.eng) (hb : s.eng.byte < s.eng.n) :
    Yields (atStep .rxack 0 pins s) rxackTrace
      (startByte (s.eng.byte + 1) (atStep .rxack 4 { pins with dataDir := .input, dataLvl := .low, sckLvl := .low } s)) :=
  .next hc rfl rfl <| .next hc rfl rfl <| .next hc rfl rfl <| .next hc rfl rfl <| .last hc rfl (if_pos hb)

/-- RXACK's table after the checksum byte. -/
theorem rxack_yields_final {s : State} {pins : Pins} (hc : CountsLegal s.eng) (hb : ¬ s.eng.byte < s.eng.n) :
    Yields (atStep .rxack 0 pins s) rxackTrace
      (atStep .final 0 { pins with dataDir := .input, dataLvl := .low, sckLvl := .low } s) :=
  .next hc rfl rfl <| .next hc rfl rfl <| .next hc rfl rfl <| .next hc rfl rfl <| .last hc rfl (if_neg hb)

/-- Settles O42: RXACK's table; with legal counts `E.BYTE` is below `E.N` or equal to it. -/
theorem byteAcknowledgment : Obligations.ByteAcknowledgment := by
  unfold Obligations.ByteAcknowledgment
  intro s a b c d e hc hp hk
  have answered : List.Forall₂ presents rxackTrace [.done a, .done b, .done c, .done d, .done e] :=
    .cons rfl <| .cons rfl <| .cons rfl <| .cons rfl <| .cons rfl .nil
  by_cases hb : s.eng.byte = s.eng.n
  · rw [if_pos hb, eq_atStep hp hk]
    exact (rxack_yields_final hc (hb ▸ BitVec.lt_irrefl _)).run answered
  · rw [if_neg hb, eq_atStep hp hk]
    exact (rxack_yields_next hc (BitVec.lt_of_le_ne hc.2 hb)).run answered

end Sys2Proof.Machine
end

section
/-! Whole exchanges (`41_protocol.md` section 4): the phases one after another leave the trace of R141, and its parts have
the counts of R142. -/

namespace Sys2Proof.Machine

/-! ## The command -/

/-- The command byte on the lines, its eight bits in wire order. -/
theorem cmd_yields {s : State} {pins : Pins} (hc : CountsLegal s.eng) :
    Yields (cmdBit 7 pins s) (cmdTrace s.eng.cmd)
      (atStep .ackrel 0 (driveBit (s.eng.cmd.getLsbD 0) pins) { s with eng := { s.eng with bit := 0 } }) :=
  (cmdBit_yields_next hc 7 (by decide)).append <| (cmdBit_yields_next hc 6 (by decide)).append <|
  (cmdBit_yields_next hc 5 (by decide)).append <| (cmdBit_yields_next hc 4 (by decide)).append <|
  (cmdBit_yields_next hc 3 (by decide)).append <| (cmdBit_yields_next hc 2 (by decide)).append <|
  (cmdBit_yields_next hc 1 (by decide)).append <| (cmdBit_yields_last hc rfl).append <| .nil _

/-- An accepted exchange whose command byte has been sent, but for the phase and the mirrors (R125). -/
def commandSent (cmd : Byte) (n : BitVec 2) (s : State) : State :=
  { acceptedExch cmd n s with eng := { (acceptedExch cmd n s).eng with bit := 0 } }

/-- The mirrors once the command byte has been sent and its acknowledgment released (R123 to R126). -/
def commandPins (cmd : Byte) (pins : Pins) : Pins :=
  { pins with sckDir := .output, sckLvl := .low, dataDir := .input, dataLvl := levelOfBit (cmd.getLsbD 0) }

theorem acceptedExch_counts (cmd : Byte) {n : BitVec 2} (hn : n ≤ 2) (s : State) :
    CountsLegal (acceptedExch cmd n s).eng :=
  ⟨hn, two_bits_nonneg n⟩

/-- SETUP, START and CMD of an accepted exchange. -/
theorem command_yields (cmd : Byte) {n : BitVec 2} (hn : n ≤ 2) (s : State) :
    Yields (acceptedExch cmd n s) (setupTrace ++ startTrace ++ cmdTrace cmd)
      (atStep .ackrel 0 { commandPins cmd s.pins with dataDir := .output } (commandSent cmd n s)) := by
  have hc := acceptedExch_counts cmd hn s
  have started := (setup_yields (pins := s.pins) hc).append (start_yields hc)
  have sent := started.append (cmd_yields hc)
  exact sent

/-! ## The polls -/

/-- The delay before the polls (R129). -/
theorem wait_yields {s : State} {pins : Pins} {k : BitVec 3} (hc : CountsLegal s.eng) :
    Yields (atStep .wait k pins s) [.delay] (atStep .poll k pins s) := by
  intro lt replies hr
  obtain _ | @⟨_, r, _, rs, -, hrs⟩ := hr
  cases hrs
  exact engineRun_wait (s := withTrace lt (atStep .wait k pins s)) r [] hc rfl

/-- High `j` times below the bound and then Low: POLL counts each and the first byte follows. -/
theorem poll_yields (j : Nat) {s : State} {pins : Pins} {k : BitVec 3} (hc : CountsLegal s.eng)
    (below : ∀ n, s.pollLimit = some n → s.polls.toNat + j < n.val.toNat) :
    Yields (atStep .poll k pins s) (pollTrace (j + 1))
      (startByte 0 (atStep .poll k { pins with dataIn := .low } { s with polls := countPoll^[j + 1] s.polls })) := by
  induction j generalizing s pins with
  | zero => exact .last hc rfl rfl
  | succ j ih =>
    have below' : ∀ n, s.pollLimit = some n → (countPoll s.polls).toNat + j < n.val.toNat := by
      intro n hn
      have := below n hn
      rw [countPoll_toNat]
      omega
    have first := pollHigh_below (s := atStep .poll k { pins with dataIn := .high } s)
      fun n hn => (Nat.le_add_right _ j).trans_lt (below' n hn)
    exact .line hc rfl first (ih (s := { s with polls := countPoll s.polls }) hc below')

/-! ## The response -/

/-- The bits of a byte, shifted in in wire order, make the byte (R68, R132). -/
theorem foldl_shiftBit_wireBits : ∀ r : Byte, (wireBits r).foldl (fun sr b => shiftBit sr (levelOfBit b)) 0 = r := by
  decide

/-- Byte `j` has been received as `r`, but for its acknowledgment. -/
def shifted (j : BitVec 2) (r : Byte) (s : State) : State :=
  { s with
      pins := { s.pins with dataIn := levelOfBit (r.getLsbD 0), sckLvl := .low }
      eng := buffered { s.eng with byte := j, bit := 0, sr := r } j r }

/-- Byte `j` has been received as `r` and acknowledged. -/
def received (j : BitVec 2) (r : Byte) (s : State) : State :=
  atStep .rxack 4 { (shifted j r s).pins with dataDir := .input, dataLvl := .low } (shifted j r s)

/-- A byte on the lines, its eight bits in wire order. -/
theorem byte_yields {s : State} (hc : CountsLegal s.eng) (j : BitVec 2) (hj : j ≤ s.eng.n) (r : Byte) :
    Yields (startByte j s) ((wireBits r).flatMap fun b => sampleTrace (levelOfBit b))
      (atStep .rxack 0 (shifted j r s).pins (shifted j r s)) := by
  have counts : CountsLegal { s.eng with byte := j } := ⟨hc.1, hj⟩
  have bit (i : Nat) (hi : BitVec.ofNat 3 i ≠ 0) (sr : Byte) (pins : Pins) :=
    sampleBit_yields_next (s := { s with eng := { s.eng with byte := j } }) (pins := pins) counts (.ofNat 3 i) hi sr
      (levelOfBit (r.getLsbD i))
  have bits := (bit 7 (by decide) 0 s.pins).append <| (bit 6 (by decide) _ _).append <|
    (bit 5 (by decide) _ _).append <| (bit 4 (by decide) _ _).append <| (bit 3 (by decide) _ _).append <|
    (bit 2 (by decide) _ _).append <| (bit 1 (by decide) _ _).append <|
    (sampleBit_yields_last counts rfl _ (levelOfBit (r.getLsbD 0))).append (.nil _)
  have whole := foldl_shiftBit_wireBits r
  simp only [wireBits, List.foldl] at whole
  rw [whole] at bits
  exact bits

/-- A byte with its acknowledgment, and the next one follows (R134). -/
theorem byte_yields_next {s : State} (hc : CountsLegal s.eng) (j : BitVec 2) (hj : j < s.eng.n) (r : Byte) :
    Yields (startByte j s) (byteTrace r) (startByte (j + 1) (received j r s)) :=
  (byte_yields hc j (BitVec.le_of_lt hj) r).append (rxack_yields_next ⟨hc.1, BitVec.le_of_lt hj⟩ hj)

/-- The checksum byte with its acknowledgment, and FINAL follows (R134). -/
theorem byte_yields_final {s : State} (hc : CountsLegal s.eng) (r : Byte) :
    Yields (startByte s.eng.n s) (byteTrace r) (enterPhase .final (received s.eng.n r s)) :=
  (byte_yields hc s.eng.n (BitVec.le_refl _) r).append
    (rxack_yields_final ⟨hc.1, BitVec.le_refl _⟩ (BitVec.lt_irrefl _))

/-- The bytes of a response have been received and acknowledged, the first as byte `j`. -/
def receivedBytes : BitVec 2 → List Byte → State → State
  | _, [], s => s
  | j, r :: rs, s => receivedBytes (j + 1) rs (received j r s)

/-- The bytes of a response, as many as are expected, and then FINAL (R132 to R134). -/
theorem bytes_yields (r : Byte) (rs : List Byte) {j : BitVec 2} {s : State} (hc : CountsLegal s.eng)
    (hlen : j.toNat + rs.length = s.eng.n.toNat) :
    Yields (startByte j s) ((r :: rs).flatMap byteTrace) (enterPhase .final (receivedBytes j (r :: rs) s)) ∧
      CountsLegal (receivedBytes j (r :: rs) s).eng := by
  induction rs generalizing r j s with
  | nil =>
    obtain rfl : j = s.eng.n := BitVec.eq_of_toNat_eq hlen
    exact ⟨(byte_yields_final hc r).append (.nil _), hc.1, BitVec.le_refl _⟩
  | cons r' rs ih =>
    rw [List.length_cons] at hlen
    have hj : j < s.eng.n := BitVec.lt_def.mpr (by omega)
    have hlen' : (j + 1).toNat + rs.length = s.eng.n.toNat := by
      rw [BitVec.toNat_add_of_lt (by simp; omega)]
      simp
      omega
    obtain ⟨rest, counts⟩ := ih r' (s := received j r s) ⟨hc.1, BitVec.le_of_lt hj⟩ hlen'
    exact ⟨(byte_yields_next hc j hj r).append rest, counts⟩

/-! ## Whole exchanges (R141) -/

/-- An exchange without a response. -/
theorem exchange_yields_command (cmd : Byte) (k : Nat) (s : State) :
    Yields (acceptedExch cmd 0 s) (exchangeTrace cmd k [])
      (conclude (atStep .final 1 { commandPins cmd s.pins with dataDir := .output, dataLvl := .high }
        (commandSent cmd 0 s))) :=
  have hc := acceptedExch_counts cmd (two_bits_nonneg 2) s
  (((command_yields cmd (two_bits_nonneg 2) s).append (ackrel_yields_final hc rfl)).append (.nil _)).append
    (final_yields hc)

/-- `k` polls, the last answered Low, have led to the shift-in of a response. -/
def polled (cmd : Byte) (n : BitVec 2) (k : Nat) (s : State) : State :=
  { commandSent cmd n s with polls := countPoll^[k] 0, pins := { commandPins cmd s.pins with dataIn := .low } }

/-- The state in which the bytes `r` of a response have been received after `k` polls. -/
def responded (cmd : Byte) (n : BitVec 2) (k : Nat) (r : List Byte) (s : State) : State :=
  receivedBytes 0 r (polled cmd n k s)

/-- An exchange with a response, `k` of its polls answered High. -/
theorem exchange_yields_response (cmd : Byte) {n : BitVec 2} (k : Nat) (s : State) (hn : n ≤ 2) (expects : n ≠ 0)
    (hk : ∀ m, s.pollLimit = some m → k < m.val.toNat) (r : Byte) (rs : List Byte) (hlen : rs.length = n.toNat) :
    Yields (acceptedExch cmd n s) (exchangeTrace cmd (k + 1) (r :: rs))
      (conclude (atStep .final 1 { (responded cmd n (k + 1) (r :: rs) s).pins with dataDir := .output, dataLvl := .high }
        (responded cmd n (k + 1) (r :: rs) s))) := by
  have hc := acceptedExch_counts cmd hn s
  have sent : CountsLegal (commandSent cmd n s).eng := hc
  have shifting : CountsLegal (polled cmd n (k + 1) s).eng := hc
  have limit : ∀ m, s.pollLimit = some m → (0 : Word).toNat + k < m.val.toNat := by simpa using hk
  have released := (command_yields cmd hn s).append (ackrel_yields_wait hc expects)
  have waited : Yields (atStep .wait 2 (commandPins cmd s.pins) (commandSent cmd n s)) (.delay :: pollTrace (k + 1))
      (startByte 0 (polled cmd n (k + 1) s)) := (wait_yields sent).append (poll_yields k sent limit)
  obtain ⟨bytes, counts⟩ := bytes_yields r rs (j := 0) shifting ((Nat.zero_add _).trans hlen)
  exact (released.append (waited.append bytes)).append (final_yields counts)

/-- The whole of an exchange that meets no IoErr and no timeout (R141). -/
theorem exchange_yields (s : State) (cmd : Byte) {k : Nat} {r : List Byte} (hk : 1 ≤ k)
    (limit : ∀ n, s.pollLimit = some n → k ≤ n.val.toNat) (hr : r.length = 0 ∨ r.length = 2 ∨ r.length = 3) :
    ∃ u, Yields (acceptedExch cmd (BitVec.ofNat 2 (r.length - 1)) s) (exchangeTrace cmd k r) (conclude u) := by
  obtain ⟨k, rfl⟩ := Nat.exists_eq_add_of_le' hk
  match r, hr with
  | [], _ => exact ⟨_, exchange_yields_command cmd (k + 1) s⟩
  | r :: rs, hr =>
    rw [List.length_cons] at hr ⊢
    have hn : rs.length = 1 ∨ rs.length = 2 := by omega
    refine ⟨_, exchange_yields_response cmd k s ?_ ?_ limit r rs ?_⟩
    all_goals obtain hn | hn := hn <;> simp [hn]

/-! ## The counts of an exchange (R142) -/

/-- How many line operations, events, `Set(SCK, High)` pulses and `Get(DATA)` samples a trace has. -/
def tally (evs : List LineEvent) : Nat × Nat × Nat × Nat :=
  (evs.countP isLineOp, evs.length, evs.countP isPulse, evs.countP isSample)

theorem tally_append (evs evs' : List LineEvent) : tally (evs ++ evs') = tally evs + tally evs' := by
  simp [tally]

theorem tally_setupTrace : tally setupTrace = (4, 4, 0, 0) := rfl

theorem tally_startTrace : tally startTrace = (7, 7, 2, 0) := rfl

theorem tally_cmdTrace (cmd : Byte) : tally (cmdTrace cmd) = (24, 24, 8, 0) := rfl

theorem tally_ackrelTrace : tally ackrelTrace = (3, 3, 1, 0) := rfl

theorem tally_finalTrace : tally finalTrace = (2, 2, 0, 0) := rfl

theorem tally_delay_pollTrace (k : Nat) : tally (.delay :: pollTrace (k + 1)) = (k + 1, k + 2, 0, k + 1) := by
  simp [tally, pollTrace, List.countP_replicate, isLineOp, isPulse, isSample]

theorem tally_byteTrace (r : Byte) : tally (byteTrace r) = (29, 29, 9, 8) := rfl

theorem tally_bytes (rs : List Byte) :
    tally (rs.flatMap byteTrace) = (29 * rs.length, 29 * rs.length, 9 * rs.length, 8 * rs.length) := by
  induction rs with
  | nil => rfl
  | cons r rs ih =>
    rw [List.flatMap_cons, tally_append, tally_byteTrace, ih]
    simp only [List.length_cons, Prod.mk_add_mk, Prod.mk.injEq]
    omega

/-- A command-only exchange has no response. -/
theorem tally_exchangeTrace_nil (cmd : Byte) (k : Nat) : tally (exchangeTrace cmd k []) = (40, 40, 11, 0) := by
  simp only [exchangeTrace, List.isEmpty_nil, if_true, List.append_nil, tally_append, tally_setupTrace, tally_startTrace,
    tally_cmdTrace, tally_ackrelTrace, tally_finalTrace, Prod.mk_add_mk]

theorem tally_exchangeTrace_cons (cmd : Byte) (k : Nat) (r : Byte) (rs : List Byte) :
    tally (exchangeTrace cmd (k + 1) (r :: rs)) =
      (70 + k + 29 * rs.length, 71 + k + 29 * rs.length, 20 + 9 * rs.length, 9 + k + 8 * rs.length) := by
  simp only [exchangeTrace, List.isEmpty_cons, Bool.false_eq_true, if_false, tally_append, tally_setupTrace,
    tally_startTrace, tally_cmdTrace, tally_ackrelTrace, tally_delay_pollTrace, tally_bytes, tally_finalTrace,
    Prod.mk_add_mk, List.length_cons, Prod.mk.injEq]
  omega

/-! ## Runs of engine steps -/

theorem engineRun_cons_next {r : EnvReply} {rs : List EnvReply} {s t : State} (h : engineRun (r :: rs) s = .next t) :
    ∃ u, engineTurn r s = .next u ∧ engineRun rs u = .next t := by
  rw [engineRun] at h
  split at h
  · next u hu => exact ⟨u, hu, h⟩
  · simp at h
  · simp at h

/-- A run that ends in a state has passed through one after each of its steps. -/
theorem engineRun_append_next {rs rs' : List EnvReply} {s t : State} (h : engineRun (rs ++ rs') s = .next t) :
    ∃ u, engineRun rs s = .next u ∧ engineRun rs' u = .next t := by
  induction rs generalizing s with
  | nil => exact ⟨s, rfl, h⟩
  | cons r rs ih =>
    obtain ⟨u, hu, ht⟩ := engineRun_cons_next h
    obtain ⟨v, hv, ht⟩ := ih ht
    exact ⟨v, by rw [engineRun, hu]; exact hv, ht⟩

/-- In its turn the engine rests while IDLE, and else makes a step (R121). -/
theorem engineTurn_cases {r : EnvReply} {s t : State} (h : engineTurn r s = .next t) :
    t = s ∨ s.eng.phase ≠ .idle ∧ engineStep r s = .next t := by
  unfold engineTurn at h
  split at h
  · injection h with h
    exact .inl h.symm
  · next running => exact .inr ⟨running, h⟩

theorem BlockInv.after_engineRun {rs : List EnvReply} {s t : State} (hs : BlockInv s) (h : engineRun rs s = .next t) :
    BlockInv t := by
  induction rs generalizing s with
  | nil => injection h with h; exact h ▸ hs
  | cons r rs ih =>
    obtain ⟨u, hu, ht⟩ := engineRun_cons_next h
    obtain rfl | ⟨running, step⟩ := engineTurn_cases hu
    · exact ih hs ht
    · exact ih (hs.after_engineStep running step) ht

theorem phaseEffect_lt (a : Answer) (s : State) : (phaseEffect a s).lt = s.lt := by
  have h := congrArg State.lt (phaseEffect_withTrace a s.lt s)
  exact h

/-- An engine step appends one event (R121). -/
theorem engineStep_lt_length {r : EnvReply} {s t : State} (h : engineStep r s = .next t) :
    t.lt.length = s.lt.length + 1 := by
  obtain ⟨-, ⟨-, -, rfl⟩ | ⟨o, -, ⟨-, rfl⟩ | ⟨-, rfl⟩⟩⟩ := engineStep_cases h
  · simp
  · simp
  · simp [phaseEffect_lt]

theorem engineRun_lt_length {rs : List EnvReply} {s t : State} (h : engineRun rs s = .next t) :
    t.lt.length ≤ s.lt.length + rs.length := by
  induction rs generalizing s with
  | nil => injection h with h; simp [h]
  | cons r rs ih =>
    obtain ⟨u, hu, ht⟩ := engineRun_cons_next h
    have := ih ht
    rw [List.length_cons]
    obtain rfl | ⟨-, step⟩ := engineTurn_cases hu
    · omega
    · have := engineStep_lt_length step
      omega

/-- A run that appends an event with each of its steps is busy until its end. -/
theorem busy_of_trace_length {rs : List EnvReply} {s t : State} (hs : BlockInv s) (h : engineRun rs s = .next t)
    (len : t.lt.length = s.lt.length + rs.length) (m : Nat) (hm : m < rs.length) :
    ∃ u, engineRun (rs.take m) s = .next u ∧ u.busy = true := by
  rw [← List.take_append_drop m rs] at h
  obtain ⟨u, hu, ht⟩ := engineRun_append_next h
  refine ⟨u, hu, (hs.after_engineRun hu).busy_iff_running.mpr fun idle => ?_⟩
  rw [engineRun_idle _ idle] at ht
  injection ht with ht
  have := engineRun_lt_length hu
  rw [List.length_take, ht] at this
  omega

/-- Settles O55: the run leaves the trace of R141, whose parts are counted, and appends to it with every step. -/
theorem exchangeCounts : Obligations.ExchangeCounts := by
  unfold Obligations.ExchangeCounts
  intro s cmd k r replies hk limit hr presented
  obtain ⟨u, yields⟩ := exchange_yields s cmd hk limit hr
  have run := yields [] replies presented
  have hn : BitVec.ofNat 2 (r.length - 1) ≤ 2 := by
    obtain h | h | h := hr <;> simp [h]
  have inv : BlockInv (acceptedExch cmd (BitVec.ofNat 2 (r.length - 1)) s) := blockInv_acceptExchange cmd hn s
  have len := presented.length_eq
  refine ⟨_, run, rfl, busy_of_trace_length inv run (len.trans (Nat.zero_add _).symm), len, ?_⟩
  rw [← len]
  obtain ⟨k, rfl⟩ := Nat.exists_eq_add_of_le' hk
  cases r with
  | nil =>
    have counts := tally_exchangeTrace_nil cmd (k + 1)
    simpa [tally, withTrace] using counts
  | cons r rs =>
    have counts := tally_exchangeTrace_cons cmd k r rs
    simp only [tally, Prod.mk.injEq] at counts
    obtain ⟨lineOps, events, pulses, samples⟩ := counts
    simp only [withTrace, List.nil_append, lineOps, events, pulses, samples, List.length_cons]
    omega

end Sys2Proof.Machine
end

section
/-! The converter (`42_converter.md`): its three integers (R181), how they grow (R185) and the operations that write
them (R182 to R184). -/

namespace Sys2Proof.Machine

/-! ## The integers as polynomials (R181) -/

theorem tC100_eq (x : BitVec 16) : tC100 x = (x.toNat : Int) - 3960 := by
  simp only [tC100, scaled, coeff]
  ring

theorem rlE10_eq (x : BitVec 16) :
    rlE10 x = -20468000000 + 367000000 * (x.toNat : Int) - 15955 * (x.toNat : Int) * (x.toNat : Int) := by
  simp only [rlE10, scaled, coeff]
  ring

theorem rtE10_eq (t : Int) (x : BitVec 16) :
    rtE10 t x = 1000 * (t - 2500) * (1000 + 8 * (x.toNat : Int)) + rlE10 x := by
  simp only [rtE10, scaled, coeff]
  ring

/-- Settles O32: the integer polynomials, with the scale divided into their coefficients. -/
theorem scaledIntegersAreExact : Obligations.ScaledIntegersAreExact := by
  unfold Obligations.ScaledIntegersAreExact
  intro x t
  refine ⟨?_, ?_, ?_, tC100_eq x, ?_, rtE10_eq t x⟩
  · rw [tC100_eq]
    push_cast
    ring
  · rw [rlE10_eq]
    push_cast
    ring
  · rw [rtE10_eq, rlE10_eq]
    push_cast
    ring
  · rw [rlE10_eq]
    ring

/-! ## How they grow (R185)

RL is RT at 25.00 degrees, and RT is a concave quadratic in the humidity operand: between two operands it rises by their
distance times a slope that falls with their sum. -/

/-- The slope of RT, at temperature `t`, between two humidity operands of sum `k`. -/
def chordSlope (t k : Int) : Int := 367000000 + 8000 * (t - 2500) - 15955 * k

theorem chordSlope_antitone (t : Int) : Antitone (chordSlope t) := by
  intro k l h
  simp only [chordSlope]
  omega

theorem rtE10_sub (t : Int) (x y : BitVec 16) :
    rtE10 t y - rtE10 t x = ((y.toNat : Int) - x.toNat) * chordSlope t (x.toNat + y.toNat) := by
  simp only [rtE10_eq, rlE10_eq, chordSlope]
  ring

theorem rtE10_at_2500 (x : BitVec 16) : rtE10 2500 x = rlE10 x := by
  rw [rtE10_eq]
  ring

theorem rtE10_succ {x y : BitVec 16} (succ : y.toNat = x.toNat + 1) (t : Int) :
    rtE10 t y = rtE10 t x + chordSlope t (x.toNat + y.toNat) := by
  have h := rtE10_sub t x y
  rw [show (y.toNat : Int) - x.toNat = 1 by omega, one_mul] at h
  omega

/-- Settles O33: RL's slope changes its sign between the steps at 11501 and 11502. -/
theorem converterLaws : Obligations.ConverterLaws := by
  unfold Obligations.ConverterLaws
  refine ⟨fun x y succ => ⟨?_, fun below => ?_, fun above => ?_⟩, rtE10_at_2500, fun t x => ?_⟩
  · rw [tC100_eq, tC100_eq]
    omega
  · rw [← rtE10_at_2500, ← rtE10_at_2500, rtE10_succ succ, chordSlope]
    omega
  · rw [← rtE10_at_2500, ← rtE10_at_2500, rtE10_succ succ, chordSlope]
    omega
  · rw [rtE10_eq, rtE10_eq]
    ring

/-! ## Their ranges -/

/-- RT is linear in the temperature, with a positive coefficient. -/
theorem rtE10_mono (x : BitVec 16) : Monotone (rtE10 · x) := by
  intro t u h
  simp only [rtE10_eq]
  gcongr

/-- RT falls below neither of its values at the ends of the operand's range. -/
theorem le_rtE10_of_ends {t m : Int} (first : m ≤ rtE10 t 0) (last : m ≤ rtE10 t 65535) (x : BitVec 16) :
    m ≤ rtE10 t x := by
  have fromFirst := rtE10_sub t 0 x
  have toLast := rtE10_sub t x 65535
  have bound := x.isLt
  simp only [BitVec.reduceToNat, Nat.cast_zero, Nat.cast_ofNat, zero_add, sub_zero] at fromFirst toLast
  obtain rising | falling := le_total 0 (chordSlope t x.toNat)
  · have rise : 0 ≤ (x.toNat : Int) * chordSlope t x.toNat := by positivity
    omega
  · have later : chordSlope t (x.toNat + 65535) ≤ 0 := (chordSlope_antitone t (by omega)).trans falling
    have fall := mul_nonpos_of_nonneg_of_nonpos (show 0 ≤ 65535 - (x.toNat : Int) by omega) later
    omega

/-- Where RT does not rise to either neighbour it has its greatest value. -/
theorem rtE10_le_of_peak {t : Int} {u v w : BitVec 16} (huv : v.toNat = u.toNat + 1) (hvw : w.toNat = v.toNat + 1)
    (left : rtE10 t u ≤ rtE10 t v) (right : rtE10 t w ≤ rtE10 t v) (x : BitVec 16) : rtE10 t x ≤ rtE10 t v := by
  have before := rtE10_succ huv t
  have after := rtE10_succ hvw t
  have toPeak := rtE10_sub t x v
  obtain lower | same | higher := Nat.lt_trichotomy x.toNat v.toNat
  · have slope : chordSlope t (u.toNat + v.toNat) ≤ chordSlope t (x.toNat + v.toNat) :=
      chordSlope_antitone t (by omega)
    have rise := mul_nonneg (show 0 ≤ (v.toNat : Int) - x.toNat by omega)
      (show 0 ≤ chordSlope t (x.toNat + v.toNat) by omega)
    omega
  · rw [BitVec.eq_of_toNat_eq same]
  · have slope : chordSlope t (x.toNat + v.toNat) ≤ chordSlope t (v.toNat + w.toNat) :=
      chordSlope_antitone t (by omega)
    have rise := mul_nonneg_of_nonpos_of_nonpos (show (v.toNat : Int) - x.toNat ≤ 0 by omega)
      (show chordSlope t (x.toNat + v.toNat) ≤ 0 by omega)
    omega

/-- The range of RL (R183). -/
theorem rlE10_range (x : BitVec 16) : -44493234969875 ≤ rlE10 x ∧ rlE10 x ≤ 2089983269045 := by
  rw [← rtE10_at_2500]
  exact ⟨le_rtE10_of_ends (by decide) (by decide) x,
    rtE10_le_of_peak (u := 11500) (v := 11501) (w := 11502) (by decide) (by decide) (by decide) (by decide) x⟩

/-- The range of RT for every temperature 17 bits hold (R184). -/
theorem rtE10_range {t : Int} (low : -65536 ≤ t) (high : t ≤ 65535) (x : BitVec 16) :
    -80231185049875 ≤ rtE10 t x ∧ rtE10 t x ≤ 11937409342720 :=
  ⟨(le_rtE10_of_ends (by decide) (by decide) x).trans (rtE10_mono x low),
    (rtE10_mono x high).trans <|
      rtE10_le_of_peak (u := 27303) (v := 27304) (w := 27305) (by decide) (by decide) (by decide) (by decide) x⟩

/-- The range of RT for the temperatures CONV_T writes (R182, R184). -/
theorem rtE10_range_of_convT {t : Int} (low : -3960 ≤ t) (high : t ≤ 61575) (x : BitVec 16) :
    -47886543769875 ≤ rtE10 t x ∧ rtE10 t x ≤ 11084175156480 :=
  ⟨(le_rtE10_of_ends (by decide) (by decide) x).trans (rtE10_mono x low),
    (rtE10_mono x high).trans <|
      rtE10_le_of_peak (u := 26311) (v := 26312) (w := 26313) (by decide) (by decide) (by decide) (by decide) x⟩

/-! ## The two words of a 48-bit result (R36, R37) -/

theorem loWord_eq (v : BitVec 48) : loWord v = BitVec.ofInt 32 v.toInt := by
  rw [loWord, ← BitVec.setWidth_eq_extractLsb' (by decide), ← BitVec.signExtend_eq_setWidth_of_le v (by decide),
    BitVec.signExtend]

theorem toInt_extractLsb'_high (v : BitVec 48) : (v.extractLsb' 32 16).toInt = v.toInt / 2 ^ 32 := by
  have bound := v.isLt
  rw [BitVec.toInt_eq_toNat_cond, BitVec.toInt_eq_toNat_cond, BitVec.extractLsb'_toNat, Nat.shiftRight_eq_div_pow]
  split <;> split <;> omega

theorem hiWord_eq (v : BitVec 48) : hiWord v = BitVec.ofInt 32 (v.toInt / 2 ^ 32) := by
  rw [hiWord, BitVec.signExtend, toInt_extractLsb'_high]

/-! ## CONV_T, CONV_RHL and CONV_RHT (R182 to R184) -/

theorem ctrlArg16_eq_of_toNat {w : Word} {x : BitVec 16} (arg : w.toNat / 2 ^ 16 = x.toNat) : ctrlArg16 w = x := by
  rw [ctrlArg16_eq, arg, BitVec.ofNat_toNat, BitVec.setWidth_eq]

theorem decodeCtrl_of_op_four {w : Word} (op : w.toNat % 16 = 4) : decodeCtrl w = .convT (ctrlArg16 w) := by
  rw [← ctrlOp_toNat] at op
  simp only [decodeCtrl, op]

theorem decodeCtrl_of_op_five {w : Word} (op : w.toNat % 16 = 5) : decodeCtrl w = .convRhl (ctrlArg16 w) := by
  rw [← ctrlOp_toNat] at op
  simp only [decodeCtrl, op]

theorem decodeCtrl_of_op_six {w : Word} (op : w.toNat % 16 = 6) : decodeCtrl w = .convRht (ctrlArg16 w) := by
  rw [← ctrlOp_toNat] at op
  simp only [decodeCtrl, op]

/-- Settles O29: 17 bits hold `x - 3960` for every 16-bit `x`. -/
theorem convTWritesTheTemperature : Obligations.ConvTWritesTheTemperature := by
  unfold Obligations.ConvTWritesTheTemperature
  intro x s
  have bound := x.isLt
  have held : (BitVec.ofInt 17 (tC100 x)).toInt = (x.toNat : Int) - 3960 := by
    rw [tC100_eq]
    exact BitVec.toInt_ofInt_eq_self (by decide) (by omega) (by omega)
  refine ⟨_, rfl, rfl, held, ?_, ?_, fun w op arg => ?_⟩
  · rw [held]
    omega
  · rw [held]
    omega
  · rw [exec_wrCtrl, decodeCtrl_of_op_four op, ctrlArg16_eq_of_toNat arg]
    rfl

/-- Settles O30: 48 bits hold RL's range, so nothing wraps. -/
theorem convRhlWritesTheLinearHumidity : Obligations.ConvRhlWritesTheLinearHumidity := by
  unfold Obligations.ConvRhlWritesTheLinearHumidity
  intro x s
  obtain ⟨low, high⟩ := rlE10_range x
  have held : (BitVec.ofInt 48 (rlE10 x)).toInt = rlE10 x :=
    BitVec.toInt_ofInt_eq_self (by decide) (by omega) (by omega)
  refine ⟨_, rfl, rfl, held.trans (rlE10_eq x), low.trans_eq held.symm, held.trans_le high, loWord_eq _, hiWord_eq _,
    fun w op arg => ?_⟩
  rw [exec_wrCtrl, decodeCtrl_of_op_five op, ctrlArg16_eq_of_toNat arg]
  rfl

/-- Settles O31: 48 bits hold RT's range for every temperature in TEMP, so nothing wraps. -/
theorem convRhtWritesTheTrueHumidity : Obligations.ConvRhtWritesTheTrueHumidity := by
  unfold Obligations.ConvRhtWritesTheTrueHumidity
  intro x s
  obtain ⟨low, high⟩ := rtE10_range s.temp.le_toInt (Int.le_of_lt_add_one s.temp.toInt_lt) x
  have held : (BitVec.ofInt 48 (rtE10 s.temp.toInt x)).toInt = rtE10 s.temp.toInt x :=
    BitVec.toInt_ofInt_eq_self (by decide) (by omega) (by omega)
  refine ⟨_, rfl, rfl, ?_, low.trans_eq held.symm, held.trans_le high, fun cold hot => ?_, loWord_eq _, hiWord_eq _,
    fun w op arg => ?_⟩
  · rw [← rlE10_eq, ← rtE10_eq]
    exact held
  · obtain ⟨narrowLow, narrowHigh⟩ := rtE10_range_of_convT cold hot x
    exact ⟨narrowLow.trans_eq held.symm, held.trans_le narrowHigh⟩
  · rw [exec_wrCtrl, decodeCtrl_of_op_six op, ctrlArg16_eq_of_toNat arg]
    rfl

end Sys2Proof.Machine
end

section
/-! The host's reads and writes, NOP, and the CTRL words that set a sticky bit (`43_control.md` rules R200 to R204). -/

namespace Sys2Proof.Machine

/-! ## Writes (R204) -/

/-- Settles O15: a CTRL write is the operation its word selects, and all but CTRL and TEMP take no write. -/
theorem writesDoWhatTheirOffsetSays : Obligations.WritesDoWhatTheirOffsetSays := by
  unfold Obligations.WritesDoWhatTheirOffsetSays
  intro v s
  have ignored (r : Reg) (h : r ≠ .ctrl ∧ r ≠ .temp := by decide) := exec_wrInstr_ignored r v s h
  refine ⟨⟨exec_wrCtrl v s, exec_completes _ s⟩, rfl, fun i offset => ?_⟩
  rcases offset with rfl | rfl | rfl | rfl | rfl | rfl | rfl | rfl | rfl | rfl | rfl | rfl | rfl | rfl
  exacts [ignored .status, ignored .rxdata, ignored .raw, ignored .polls, ignored .crc, ignored .rhlLo, ignored .rhlHi,
    ignored .rhtLo, ignored .rhtHi, ignored .lastcmd, ignored .pins, ignored .rsvd34, ignored .rsvd38, ignored .rsvd3C]

/-! ## Illegal words (R201) -/

theorem decodeCtrl_of_op_seven {w : Word} (op : w.toNat % 16 = 7) : decodeCtrl w = .illOp7 := by
  rw [← ctrlOp_toNat] at op
  simp only [decodeCtrl, op]

theorem decodeCtrl_of_op_ge_eight {w : Word} (op : 8 ≤ w.toNat % 16) : decodeCtrl w = .illOp8to15 := by
  rw [← ctrlOp_toNat] at op
  unfold decodeCtrl
  split
  case h_9 => rfl
  all_goals omega

theorem decodeCtrl_of_exch_three {w : Word} (op : w.toNat % 16 = 1) (n : w.toNat / 2 ^ 16 % 4 = 3) :
    decodeCtrl w = .illExchN3 := by
  rw [← ctrlOp_toNat] at op
  rw [← ctrlN_toNat] at n
  simp only [decodeCtrl, op, decodeExch, n]

/-- Settles O17: every illegal word selects one of the three illegal operations, and each of these sets ILL alone. -/
theorem illegalWordsSetIllOnly : Obligations.IllegalWordsSetIllOnly := by
  unfold Obligations.IllegalWordsSetIllOnly
  intro s
  refine ⟨rfl, rfl, rfl, fun w illegal => ?_⟩
  rw [exec_wrCtrl]
  obtain op | op | ⟨op, n⟩ :
      w.toNat % 16 = 7 ∨ 8 ≤ w.toNat % 16 ∨ (w.toNat % 16 = 1 ∧ w.toNat / 2 ^ 16 % 4 = 3) := by omega
  · rw [decodeCtrl_of_op_seven op]
    rfl
  · rw [decodeCtrl_of_op_ge_eight op]
    rfl
  · rw [decodeCtrl_of_exch_three op n]
    rfl

/-! ## EXCH while BUSY = 1 (R202) -/

theorem startExchange_discarded {s : State} (busy : s.busy = true) (cmd : Byte) (n : BitVec 2) :
    startExchange cmd n s = setOvr s := by
  rw [startExchange, if_pos busy]

/-- Settles O18: each of them is `startExchange`, which sets OVR while BUSY = 1. -/
theorem exchWhileBusySetsOvrOnly : Obligations.ExchWhileBusySetsOvrOnly := by
  unfold Obligations.ExchWhileBusySetsOvrOnly
  intro s cmd busy
  have discarded (c : Byte) (n : BitVec 2) : (.next (startExchange c n s) : Answered) = .next (setOvr s) :=
    congrArg Host.Outcome.next (startExchange_discarded busy c n)
  exact ⟨discarded cmd 0, discarded cmd 1, discarded cmd 2,
    fun w op n => (exec_wrCtrl_exch op n s).trans (discarded _ _)⟩

/-! ## Reads (R203) -/

/-- A read gives the host its register's value (R63, R203). -/
theorem exec_rdInstr (r : Reg) (s : State) : exec (rdInstr r) s = .next (hostRead r s) := by
  cases r <;> rfl

theorem levelBit_eq (v : Level) : levelBit v = (v == .high) := by
  cases v <;> rfl

theorem directionBit_eq (d : Direction) : directionBit d = (d == .output) := by
  cases d <;> rfl

/-- The PINS word says which mirrors are High and which are Out (R39). -/
theorem pinsWord_eq (p : Pins) :
    pinsWord p = 0#27 ++ BitVec.ofBool (p.dataIn == .high) ++ BitVec.ofBool (p.dataLvl == .high) ++
      BitVec.ofBool (p.dataDir == .output) ++ BitVec.ofBool (p.sckLvl == .high) ++
      BitVec.ofBool (p.sckDir == .output) := by
  simp only [pinsWord, levelBit_eq, directionBit_eq]

/-- Settles O11: a read returns the register's value, which is composed of its fields. -/
theorem readsReturnTheirRegister : Obligations.ReadsReturnTheirRegister := by
  unfold Obligations.ReadsReturnTheirRegister
  intro s
  have returns (r : Reg) {w : Word} (value : regValue s r = w) :
      exec (rdInstr r) s = .next { s with reads := s.reads ++ [w] } := value ▸ exec_rdInstr r s
  exact ⟨returns .ctrl rfl, returns .status rfl, returns .rxdata rfl,
    returns .raw (BitVec.setWidth_eq_append (by decide)), returns .polls rfl, returns .crc rfl, returns .temp rfl,
    returns .rhlLo (loWord_eq s.rhl), returns .rhlHi (hiWord_eq s.rhl), returns .rhtLo (loWord_eq s.rht),
    returns .rhtHi (hiWord_eq s.rht), returns .lastcmd rfl, returns .pins (pinsWord_eq s.pins), returns .rsvd34 rfl,
    returns .rsvd38 rfl, returns .rsvd3C rfl⟩

/-! ## NOP (R200) -/

theorem decodeCtrl_of_op_zero {w : Word} (op : w.toNat % 16 = 0) : decodeCtrl w = .nop := by
  rw [← ctrlOp_toNat] at op
  simp only [decodeCtrl, op]

/-- Settles O16: every word with OP 0 selects NOP, which writes OVR and ILL alone. -/
theorem nopClearsStickyBits : Obligations.NopClearsStickyBits := by
  unfold Obligations.NopClearsStickyBits
  refine fun s => ⟨rfl, fun w op => ?_⟩
  rw [exec_wrCtrl, decodeCtrl_of_op_zero op]
  rfl

end Sys2Proof.Machine
end

section
/-! Reset (`70_reset_and_hazards.md` rule R250). -/

namespace Sys2Proof.Machine

/-- Reset is admitted in every state, a running exchange or not (R250, R251). -/
@[simp] theorem takeInput_reset (s : State) : takeInput .reset s = .next (resetBlock s) := rfl

/-- Nothing of the block outlives a reset (R250). -/
theorem resetBlock_sameBlock (s : State) : SameBlock (resetBlock s) State.reset := rfl

/-- After reset every register reads 0 (R250): the composed words have only zero fields. -/
theorem regValue_reset (r : Reg) : regValue State.reset r = 0 := by
  cases r with
  | ctrl | rsvd34 | rsvd38 | rsvd3C | rxdata | raw | polls | temp => rfl
  | status => exact (by decide : statusWord State.reset = 0)
  | crc => exact (by decide : crcWord State.reset = 0)
  | lastcmd => exact (by decide : lastcmdWord State.reset = 0)
  | pins => exact (by decide : pinsWord Pins.reset = 0)
  | rhlLo | rhtLo => exact (by decide : loWord 0 = 0)
  | rhlHi | rhtHi => exact (by decide : hiWord 0 = 0)

/-- Settles O59: reset leaves `State.reset`'s block, whose elements are all 0. -/
theorem resetState : Obligations.ResetState := by
  unfold Obligations.ResetState
  have taken (s : State) : ∃ t, takeInput .reset s = .next t ∧ SameBlock t State.reset ∧ t.pollLimit = s.pollLimit :=
    ⟨resetBlock s, takeInput_reset s, resetBlock_sameBlock s, resetBlock_pollLimit s⟩
  exact ⟨taken, regValue_reset, rfl, rfl, rfl, rfl, rfl, rfl, rfl, rfl, rfl, rfl, rfl, rfl, rfl, rfl⟩

end Sys2Proof.Machine
end

section
/-! Forms of the instructions (`30_encoding.md`): the encoder's words and transactions decode to what they encode (R80 to
R88), and the words the pseudo-instructions write are the encoder's (R92). -/

namespace Sys2Proof

open Machine

/-! ## The fields of an encoded CTRL word (R80) -/

theorem ctrlWord_toNat (op : BitVec 4) (arg8 : Byte) (arg16 : BitVec 16) :
    (ctrlWord op arg8 arg16).toNat = arg16.toNat * 2 ^ 16 + arg8.toNat * 2 ^ 8 + op.toNat := by
  have := op.isLt
  have := arg8.isLt
  simp only [ctrlWord, BitVec.toNat_append, BitVec.toNat_ofNat, Nat.zero_mod]
  rw [← Nat.shiftLeft_add_eq_or_of_lt (by omega), ← Nat.shiftLeft_add_eq_or_of_lt (by omega),
    ← Nat.shiftLeft_add_eq_or_of_lt (by omega)]
  simp only [Nat.shiftLeft_eq]
  omega

@[simp] theorem ctrlOp_ctrlWord (op : BitVec 4) (arg8 : Byte) (arg16 : BitVec 16) :
    ctrlOp (ctrlWord op arg8 arg16) = op := by
  have := op.isLt
  apply BitVec.eq_of_toNat_eq
  rw [ctrlOp_toNat, ctrlWord_toNat]
  omega

@[simp] theorem ctrlArg8_ctrlWord (op : BitVec 4) (arg8 : Byte) (arg16 : BitVec 16) :
    ctrlArg8 (ctrlWord op arg8 arg16) = arg8 := by
  have := op.isLt
  have := arg8.isLt
  apply BitVec.eq_of_toNat_eq
  rw [ctrlArg8_eq, ctrlWord_toNat, BitVec.toNat_ofNat]
  omega

@[simp] theorem ctrlArg16_ctrlWord (op : BitVec 4) (arg8 : Byte) (arg16 : BitVec 16) :
    ctrlArg16 (ctrlWord op arg8 arg16) = arg16 := by
  have := op.isLt
  have := arg8.isLt
  have := arg16.isLt
  apply BitVec.eq_of_toNat_eq
  rw [ctrlArg16_eq, ctrlWord_toNat, BitVec.toNat_ofNat]
  omega

@[simp] theorem ctrlN_ctrlWord (op : BitVec 4) (arg8 : Byte) (arg16 : BitVec 16) :
    ctrlN (ctrlWord op arg8 arg16) = arg16.setWidth 2 := by
  have := op.isLt
  have := arg8.isLt
  apply BitVec.eq_of_toNat_eq
  rw [ctrlN_toNat, ctrlWord_toNat, BitVec.toNat_setWidth]
  omega

/-! ## Decoding what has been encoded -/

/-- The word the encoder writes for an operation of a CTRL row (R80, R81). -/
def CtrlOp.word : CtrlOp → Word
  | .nop         => ctrlWord 0 0 0
  | .exchN0 cmd  => ctrlWord 1 cmd 0
  | .exchN1 cmd  => ctrlWord 1 cmd 1
  | .exchN2 cmd  => ctrlWord 1 cmd 2
  | .illExchN3   => ctrlWord 1 0 3
  | .crcClr      => ctrlWord 2 0 0
  | .crcAdd b    => ctrlWord 3 b 0
  | .convT x     => ctrlWord 4 0 x
  | .convRhl x   => ctrlWord 5 0 x
  | .convRht x   => ctrlWord 6 0 x
  | .illOp7      => ctrlWord 7 0 0
  | .illOp8to15  => ctrlWord 8 0 0

theorem encode_ctrl (o : CtrlOp) : encode o.instr = lanes o.word := by
  cases o <;> rfl

theorem decodeCtrl_word (o : CtrlOp) : decodeCtrl o.word = o := by
  cases o <;> simp [CtrlOp.word, decodeCtrl, decodeExch]

theorem decode_encode_ctrl (o : CtrlOp) : decode (encode o.instr) = .ok o.instr := by
  rw [encode_ctrl, decode_lanes_ctrl, decodeCtrl_word]

theorem decodeAccess_offset (r : Reg) (write : Bool) (v : Word) :
    decodeAccess ⟨write, (BitVec.ofNat 8 r.offset).toNat, 4, v⟩ = .ok (if write then wrInstr r v else rdInstr r) := by
  have offset : (BitVec.ofNat 8 r.offset).toNat = r.offset := by cases r <;> rfl
  simp [offset, decodeAccess, decodeTxn]

theorem decode_rdBytes (r : Reg) : decode (rdBytes r) = .ok (rdInstr r) :=
  (decode_lanes_txn 0 _).1.trans (decodeAccess_offset r false 0)

theorem decode_wrBytes (r : Reg) (v : Word) : decode (wrBytes r v) = .ok (wrInstr r v) :=
  (decode_lanes_txn v _).2.trans (decodeAccess_offset r true v)

/-- Settles O1: each format by itself, CTRL words, wire bytes, reads and writes. -/
theorem decodeOfEncode : Obligations.DecodeOfEncode := by
  unfold Obligations.DecodeOfEncode
  intro i _
  cases i with
  | nop => exact decode_encode_ctrl .nop
  | exchN0 cmd => exact decode_encode_ctrl (.exchN0 cmd)
  | exchN1 cmd => exact decode_encode_ctrl (.exchN1 cmd)
  | exchN2 cmd => exact decode_encode_ctrl (.exchN2 cmd)
  | illExchN3 => exact decode_encode_ctrl .illExchN3
  | crcClr => exact decode_encode_ctrl .crcClr
  | crcAdd b => exact decode_encode_ctrl (.crcAdd b)
  | convT x => exact decode_encode_ctrl (.convT x)
  | convRhl x => exact decode_encode_ctrl (.convRhl x)
  | convRht x => exact decode_encode_ctrl (.convRht x)
  | illOp7 => exact decode_encode_ctrl .illOp7
  | illOp8to15 => exact decode_encode_ctrl .illOp8to15
  | wireMeasureTemperature | wireMeasureRelativeHumidity | wireReadStatusRegister | wireSoftReset => rfl
  | rdCtrl => exact decode_rdBytes .ctrl
  | rdStatus => exact decode_rdBytes .status
  | rdRxdata => exact decode_rdBytes .rxdata
  | rdRaw => exact decode_rdBytes .raw
  | rdPolls => exact decode_rdBytes .polls
  | rdCrc => exact decode_rdBytes .crc
  | rdTemp => exact decode_rdBytes .temp
  | rdRhlLo => exact decode_rdBytes .rhlLo
  | rdRhlHi => exact decode_rdBytes .rhlHi
  | rdRhtLo => exact decode_rdBytes .rhtLo
  | rdRhtHi => exact decode_rdBytes .rhtHi
  | rdLastcmd => exact decode_rdBytes .lastcmd
  | rdPins => exact decode_rdBytes .pins
  | rdRsvd34 => exact decode_rdBytes .rsvd34
  | rdRsvd38 => exact decode_rdBytes .rsvd38
  | rdRsvd3C => exact decode_rdBytes .rsvd3C
  | wrCtrl v => exact decode_wrBytes .ctrl v
  | wrTemp v => exact decode_wrBytes .temp v
  | wrRoStatus v => exact decode_wrBytes .status v
  | wrRoRxdata v => exact decode_wrBytes .rxdata v
  | wrRoRaw v => exact decode_wrBytes .raw v
  | wrRoPolls v => exact decode_wrBytes .polls v
  | wrRoCrc v => exact decode_wrBytes .crc v
  | wrRoRhlLo v => exact decode_wrBytes .rhlLo v
  | wrRoRhlHi v => exact decode_wrBytes .rhlHi v
  | wrRoRhtLo v => exact decode_wrBytes .rhtLo v
  | wrRoRhtHi v => exact decode_wrBytes .rhtHi v
  | wrRoLastcmd v => exact decode_wrBytes .lastcmd v
  | wrRoPins v => exact decode_wrBytes .pins v
  | wrRsvd34 v => exact decode_wrBytes .rsvd34 v
  | wrRsvd38 v => exact decode_wrBytes .rsvd38 v
  | wrRsvd3C v => exact decode_wrBytes .rsvd3C v

/-! ## The words of the pseudo-instructions (R92) -/

/-- A word as R92 adds it up is the encoder's. -/
theorem add_eq_ctrlWord (op : BitVec 4) (arg8 : Byte) (arg16 : BitVec 16) :
    (arg16.setWidth 32 <<< 16) + (arg8.setWidth 32 <<< 8) + op.setWidth 32 = ctrlWord op arg8 arg16 := by
  have := op.isLt
  have := arg8.isLt
  have := arg16.isLt
  apply BitVec.eq_of_toNat_eq
  simp [ctrlWord_toNat, Nat.shiftLeft_eq]
  omega

theorem exchWord_eq_ctrlWord (c : Byte) (n : BitVec 2) : exchWord c n = ctrlWord 1 c (n.setWidth 16) := by
  rw [← add_eq_ctrlWord, BitVec.setWidth_setWidth (by decide)]
  rfl

/-- With N = 3 the word is illegal, whatever its command (R201). -/
theorem decodeCtrl_exchWord_three (c : Byte) : decodeCtrl (exchWord c 3) = .illExchN3 := by
  rw [exchWord_eq_ctrlWord]
  simp [decodeCtrl, decodeExch]

theorem add_eq_ctrlWord_arg8 (op : BitVec 4) (b : Byte) :
    (b.setWidth 32 <<< 8) + op.setWidth 32 = ctrlWord op b 0 := by
  simp [← add_eq_ctrlWord]

theorem add_eq_ctrlWord_arg16 (op : BitVec 4) (x : BitVec 16) :
    (x.setWidth 32 <<< 16) + op.setWidth 32 = ctrlWord op 0 x := by
  simp [← add_eq_ctrlWord]

/-- The low 17 bits of a temperature's sign extension are the temperature (R82, R92). -/
theorem extractLsb'_signExtend (t : BitVec 17) : (t.signExtend 32).extractLsb' 0 17 = t := by
  apply BitVec.eq_of_toNat_eq
  rw [BitVec.extractLsb'_toNat, Nat.shiftRight_zero]
  exact signExtend_toNat_mod t (by decide)

/-- Settles O5: each expansion writes the encoder's word of its operation, or TEMP. -/
theorem pseudoInstructionsDoTheirOperation : Obligations.PseudoInstructionsDoTheirOperation := by
  unfold Obligations.PseudoInstructionsDoTheirOperation
  intro s
  have performs (o : CtrlOp) {v : Word} (h : v = o.word) : exec (.wrCtrl v) s = exec o.instr s := by
    rw [h, exec_wrCtrl, decodeCtrl_word]
  have illegal (c : Byte) : exec (.wrCtrl (exchWord c 3)) s = exec .illExchN3 s := by
    rw [exec_wrCtrl, decodeCtrl_exchWord_three, CtrlOp.instr]
  have settemp (t : BitVec 17) : exec (Pseudo.settemp t).expand s = .next { s with temp := t } := by
    rw [Pseudo.expand, exec, execWrTemp, extractLsb'_signExtend]
  exact ⟨performs .nop (by decide), fun c => performs (.exchN0 c) (exchWord_eq_ctrlWord c 0),
    fun c => performs (.exchN1 c) (exchWord_eq_ctrlWord c 1), fun c => performs (.exchN2 c) (exchWord_eq_ctrlWord c 2),
    illegal, performs .crcClr (by decide),
    fun b => performs (.crcAdd b) (add_eq_ctrlWord_arg8 3 b), fun x => performs (.convT x) (add_eq_ctrlWord_arg16 4 x),
    fun x => performs (.convRhl x) (add_eq_ctrlWord_arg16 5 x), fun x => performs (.convRht x) (add_eq_ctrlWord_arg16 6 x),
    settemp, performs (.exchN2 0x03) (exchWord_eq_ctrlWord 0x03 2), performs (.exchN2 0x05) (exchWord_eq_ctrlWord 0x05 2),
    performs (.exchN1 0x07) (exchWord_eq_ctrlWord 0x07 1), performs (.exchN0 0x1E) (exchWord_eq_ctrlWord 0x1E 0)⟩

end Sys2Proof
end

section
/-! The engine along a run (`41_protocol.md` rules R121 to R135): what one step can change, the order of the phases, and
what that keeps: counters the phase rules speak of, so that no step faults, and a POLLS within the bound. -/

namespace Sys2Proof.Machine

/-! ## What an engine step changes (R121, R122) -/

theorem running_of_engineStep {r : EnvReply} {s t : State} (h : engineStep r s = .next t) : s.eng.phase ≠ .idle := by
  intro idle
  rw [engineStep, engineAct_idle idle] at h
  cases h

/-- The results an exchange can end with (R221). -/
def EndResult (res : Result) : Prop :=
  res = .success ∨ res = .checksumMismatch ∨ res = .ioError ∨ res = .timeout

theorem endResult_verdict (e : Engine) : EndResult (verdict e) :=
  (verdict_cases e).imp_right .inl

/-- An engine step moves the trace, the mirrors, POLLS and the engine, and either the exchange still runs or it ends. -/
theorem engineStep_runs_or_ends {r : EnvReply} {s t : State} (h : engineStep r s = .next t) :
    ∃ lt pins polls e,
      (e.phase ≠ .idle ∧ t = { s with lt := lt, pins := pins, polls := polls, eng := e }) ∨
      ∃ res, EndResult res ∧ t = finish res { s with lt := lt, pins := pins, polls := polls, eng := e } := by
  have running := running_of_engineStep h
  obtain ⟨-, ⟨-, -, rfl⟩ | ⟨o, -, ⟨-, rfl⟩ | ⟨-, rfl⟩⟩⟩ := engineStep_cases h
  · exact ⟨_, s.pins, s.polls, _, .inl ⟨by simp, rfl⟩⟩
  · exact ⟨_, _, s.polls, s.eng, .inr ⟨_, .inr (.inr (.inl rfl)), rfl⟩⟩
  · obtain ⟨e, heq, -, -, he⟩ | ⟨-, heq⟩ | ⟨-, heq⟩ | ⟨-, heq⟩ | ⟨-, heq⟩ :=
      phaseEffect_cases (answerTo o r) (observe o (answerTo o r) s) running <;> rw [heq]
    · exact ⟨_, _, s.polls, e, .inl ⟨he, rfl⟩⟩
    · exact ⟨_, _, _, s.eng, .inl ⟨running, rfl⟩⟩
    · exact ⟨_, _, _, _, .inl ⟨by simp, rfl⟩⟩
    · exact ⟨_, _, _, s.eng, .inr ⟨_, .inr (.inr (.inr rfl)), rfl⟩⟩
    · exact ⟨_, _, s.polls, _, .inr ⟨_, endResult_verdict _, rfl⟩⟩

/-! ## How the phases advance (R123 to R135) -/

/-- The last `E.STEP` of a phase; IDLE, WAIT and POLL do not look at it. -/
def lastStep : Phase → BitVec 3
  | .setup   => 3
  | .start   => 6
  | .cmd     => 2
  | .ackrel  => 2
  | .shiftin => 2
  | .rxack   => 4
  | .final   => 1
  | _        => 7

theorem phaseSteps_eq (p : Phase) : phaseSteps p = (lastStep p).toNat + 1 := by
  cases p <;> rfl

/-- Where a phase other than WAIT and POLL takes the engine, unless the exchange ends. -/
inductive Advance (e e' : Engine) : Prop
  | nextStep (more : e.step ≠ lastStep e.phase) (phase : e'.phase = e.phase) (step : e'.step = e.step + 1)
      (bit : e'.bit = e.bit) (byte : e'.byte = e.byte)
  | nextBit (clocked : e.phase = .cmd ∨ e.phase = .shiftin) (more : e.bit ≠ 0) (phase : e'.phase = e.phase)
      (step : e'.step = 0) (bit : e'.bit = e.bit - 1) (byte : e'.byte = e.byte)
  | setup_start (setup : e.phase = .setup) (phase : e'.phase = .start) (step : e'.step = 0)
  | start_cmd (start : e.phase = .start) (phase : e'.phase = .cmd) (step : e'.step = 0) (bit : e'.bit = 7)
  | cmd_ackrel (cmd : e.phase = .cmd) (phase : e'.phase = .ackrel) (step : e'.step = 0)
  | ackrel_wait (ackrel : e.phase = .ackrel) (phase : e'.phase = .wait)
  | shiftin_rxack (shiftin : e.phase = .shiftin) (phase : e'.phase = .rxack) (step : e'.step = 0)
      (byte : e'.byte = e.byte)
  | rxack_shiftin (rxack : e.phase = .rxack) (more : e.byte < e.n) (phase : e'.phase = .shiftin) (step : e'.step = 0)
      (bit : e'.bit = 7) (byte : e'.byte = e.byte + 1)
  | final (before : e.phase = .ackrel ∨ e.phase = .rxack) (phase : e'.phase = .final) (step : e'.step = 0)

theorem Advance.of_nextStep {e : Engine} (more : e.step ≠ lastStep e.phase) (sr : Byte) :
    Advance e { e with sr := sr, step := e.step + 1 } :=
  .nextStep more rfl rfl rfl rfl

/-- Everything the effect of a phase other than WAIT and POLL can do (R123 to R135). -/
theorem phaseEffect_advances (a : Answer) {s : State} (running : s.eng.phase ≠ .idle) (waits : s.eng.phase ≠ .wait)
    (polls : s.eng.phase ≠ .poll) :
    (∃ e, phaseEffect a s = { s with eng := e } ∧ e.n = s.eng.n ∧ Advance s.eng e) ∨ phaseEffect a s = conclude s := by
  have next (more : s.eng.step ≠ lastStep s.eng.phase) (sr : Byte) :
      ∃ e, ({ s with eng := { s.eng with sr := sr, step := s.eng.step + 1 } } : State) = { s with eng := e } ∧
        e.n = s.eng.n ∧ Advance s.eng e :=
    ⟨_, rfl, rfl, .of_nextStep more sr⟩
  unfold phaseEffect
  cases hp : s.eng.phase with
  | idle => exact absurd hp running
  | wait => exact absurd hp waits
  | poll => exact absurd hp polls
  | setup =>
    simp only [afterSetup]
    split
    · exact .inl ⟨_, rfl, rfl, .setup_start hp rfl rfl⟩
    · exact .inl (next (by rwa [hp]) s.eng.sr)
  | start =>
    simp only [afterStart]
    split
    · exact .inl ⟨_, rfl, rfl, .start_cmd hp rfl rfl rfl⟩
    · exact .inl (next (by rwa [hp]) s.eng.sr)
  | cmd =>
    simp only [afterCmd]
    split
    · split
      · exact .inl ⟨_, rfl, rfl, .cmd_ackrel hp rfl rfl⟩
      · exact .inl ⟨_, rfl, rfl, .nextBit (.inl hp) ‹_› rfl rfl rfl rfl⟩
    · exact .inl (next (by rwa [hp]) s.eng.sr)
  | ackrel =>
    simp only [afterAckrel]
    split
    · split
      · exact .inl ⟨_, rfl, rfl, .final (.inl hp) rfl rfl⟩
      · exact .inl ⟨_, rfl, rfl, .ackrel_wait hp rfl⟩
    · exact .inl (next (by rwa [hp]) s.eng.sr)
  | shiftin =>
    simp only [afterShiftin]
    split
    · split
      · obtain ⟨-, n, byte, -⟩ := setBuf_counters s.eng s.eng.byte s.eng.sr
        exact .inl ⟨_, rfl, n, .shiftin_rxack hp rfl rfl byte⟩
      · exact .inl ⟨_, rfl, rfl, .nextBit (.inr hp) ‹_› rfl rfl rfl rfl⟩
    · split
      · exact .inl (next (by rwa [hp]) _)
      · exact .inl (next (by rwa [hp]) s.eng.sr)
  | rxack =>
    simp only [afterRxack]
    split
    · split
      · exact .inl ⟨_, rfl, rfl, .rxack_shiftin hp ‹_› rfl rfl rfl rfl⟩
      · exact .inl ⟨_, rfl, rfl, .final (.inr hp) rfl rfl⟩
    · exact .inl (next (by rwa [hp]) s.eng.sr)
  | final =>
    simp only [afterFinal]
    split
    · exact .inr rfl
    · exact .inl (next (by rwa [hp]) s.eng.sr)

/-- A poll answered with a level: the first byte follows, or another poll within the bound, or TIMEOUT (R130, R131). -/
theorem afterPoll_cases (v : Level) (s : State) :
    afterPoll v s = startByte 0 { s with polls := countPoll s.polls } ∨
    (afterPoll v s = { s with polls := countPoll s.polls } ∧
      ∀ n, s.pollLimit = some n → (countPoll s.polls).toNat < n.val.toNat) ∨
    afterPoll v s = finish .timeout { s with polls := countPoll s.polls } := by
  cases v with
  | low => exact .inl rfl
  | high =>
    rw [afterPoll, pollHigh]
    split
    · exact .inr (.inr rfl)
    · next below =>
      exact .inr (.inl ⟨rfl, fun n hn => Nat.lt_of_not_le fun reached => below (pollBoundReached_iff.mpr ⟨n, hn, reached⟩)⟩)

/-- An answer to a `Get` that is not `IoErr` is a level (R64). -/
theorem answerTo_get {l : Line} {r : EnvReply} (ok : answerTo (.get l) r ≠ .ioErr) :
    ∃ v, answerTo (.get l) r = .lvl v := by
  cases r with
  | done v => exact ⟨v, rfl⟩
  | ioErr => exact absurd rfl ok

/-- WAIT issues no operation (R129). -/
theorem not_wait_of_line {e : Engine} {o : LineOp} (act : engineAct e = some (.line o)) : e.phase ≠ .wait := by
  intro wait
  rw [engineAct_wait (engineAct_counts act) wait] at act
  cases act

/-- Everything an engine step can do, by the phase it is made in (R121, R122, R129). -/
theorem engineStep_advances {r : EnvReply} {s t : State} (h : engineStep r s = .next t) :
    (s.eng.phase = .wait ∧ t = waitStep s) ∨
    (s.eng.phase ≠ .wait ∧ ∃ o a,
      (∃ res, t = finish res (observe o a s)) ∨
      t = conclude (observe o a s) ∨
      (s.eng.phase = .poll ∧ ∃ v, t = afterPoll v (observe o a s)) ∨
      (s.eng.phase ≠ .poll ∧ ∃ e, t = { observe o a s with eng := e } ∧ e.n = s.eng.n ∧ Advance s.eng e)) := by
  have running := running_of_engineStep h
  obtain ⟨counts, ⟨-, wait, rfl⟩ | ⟨o, act, answer⟩⟩ := engineStep_cases h
  · exact .inl ⟨wait, rfl⟩
  have waits := not_wait_of_line act
  obtain ⟨-, rfl⟩ | ⟨ok, rfl⟩ := answer
  · exact .inr ⟨waits, o, .ioErr, .inl ⟨_, rfl⟩⟩
  refine .inr ⟨waits, o, answerTo o r, .inr ?_⟩
  by_cases poll : s.eng.phase = .poll
  · rw [engineAct_of_legal counts, phaseAct, poll] at act
    cases act
    obtain ⟨v, level⟩ := answerTo_get ok
    refine .inr (.inl ⟨poll, v, ?_⟩)
    rw [level, phaseEffect, observe_eng, poll]
  · exact (phaseEffect_advances (answerTo o r) (s := observe o _ s) running waits poll).symm.imp_right
      fun moved => .inr ⟨poll, moved⟩

/-! ## Legal counters (R40, R45) -/

/-- `E.STEP` has a value its phase has. -/
def StepLegal (e : Engine) : Prop := e.step.toNat < phaseSteps e.phase

theorem stepLegal_of_zero {e : Engine} (h : e.step = 0) : StepLegal e := by
  rw [StepLegal, h, phaseSteps_eq]
  exact Nat.succ_pos _

theorem stepLegal_of_unread {e : Engine} (h : lastStep e.phase = 7) : StepLegal e := by
  rw [StepLegal, phaseSteps_eq, h]
  exact e.step.isLt

/-- The next step of a phase that has one more. -/
theorem toNat_step_succ {e : Engine} (h : StepLegal e) (more : e.step ≠ lastStep e.phase) :
    (e.step + 1).toNat = e.step.toNat + 1 ∧ e.step.toNat + 1 < phaseSteps e.phase := by
  have bound := (lastStep e.phase).isLt
  rw [← BitVec.toNat_ne_iff_ne] at more
  rw [StepLegal, phaseSteps_eq] at h
  rw [phaseSteps_eq]
  exact ⟨BitVec.toNat_add_of_lt (by simp; omega), by omega⟩

theorem Advance.stepLegal {e e' : Engine} (h : StepLegal e) (next : Advance e e') : StepLegal e' := by
  cases next with
  | nextStep more phase step =>
    obtain ⟨succ, below⟩ := toNat_step_succ h more
    rw [StepLegal, step, phase, succ]
    exact below
  | ackrel_wait _ phase => exact stepLegal_of_unread (by rw [phase]; rfl)
  | _ => exact stepLegal_of_zero ‹_›

theorem SequenceInv.after_engineStep {r : EnvReply} {s t : State} (h : SequenceInv s) (hst : engineStep r s = .next t) :
    SequenceInv t := by
  refine ⟨engineStep_counts hst, ?_⟩
  obtain ⟨-, rfl⟩ | ⟨-, o, a, ⟨res, rfl⟩ | rfl | ⟨poll, v, rfl⟩ | ⟨-, e, rfl, -, next⟩⟩ := engineStep_advances hst
  · exact stepLegal_of_unread rfl
  · exact stepLegal_of_zero rfl
  · exact stepLegal_of_zero rfl
  · obtain heq | ⟨heq, -⟩ | heq := afterPoll_cases v (observe o a s) <;> rw [heq]
    · exact stepLegal_of_zero rfl
    · exact h.2
    · exact stepLegal_of_zero rfl
  · exact next.stepLegal h.2

theorem sequenceInv_acceptExchange (cmd : Byte) {n : BitVec 2} (hn : n ≤ 2) (s : State) :
    SequenceInv (acceptExchange cmd n s) :=
  ⟨acceptedExch_counts cmd hn s, stepLegal_of_zero rfl⟩

theorem SequenceInv.after_exec {i : Instr} {s t : State} (h : SequenceInv s) (hst : exec i s = .next t) :
    SequenceInv t := by
  obtain ⟨cmd, n, hn, -, heq⟩ | ⟨_, _, _, _, _, _, _, heq⟩ := exec_cases i s <;>
    (rw [heq] at hst; injection hst with hst; subst hst)
  · exact sequenceInv_acceptExchange cmd hn s
  · exact h

/-- Settles O48: after reset every counter is 0. -/
theorem sequenceInvAtReset : Obligations.SequenceInvAtReset :=
  ⟨blockInv_reset.counts_legal, stepLegal_of_zero rfl⟩

theorem exists_getElem?_line {ops : List LineOp} {k : Nat} (h : k < ops.length) :
    ∃ a, ops[k]?.map EngineAct.line = some a := by
  rw [List.getElem?_eq_getElem h]
  exact ⟨_, rfl⟩

/-- A running engine whose `E.STEP` is legal has something to do (R121). -/
theorem exists_phaseAct {e : Engine} (running : e.phase ≠ .idle) (h : StepLegal e) : ∃ a, phaseAct e = some a := by
  unfold StepLegal at h
  unfold phaseAct
  cases hp : e.phase <;> rw [hp] at h
  case idle => exact absurd hp running
  case wait | poll => exact ⟨_, rfl⟩
  all_goals exact exists_getElem?_line h

theorem engineStep_completes {s : State} (h : SequenceInv s) (running : s.eng.phase ≠ .idle) (r : EnvReply) :
    ∃ t, engineStep r s = .next t := by
  obtain ⟨counts, step⟩ := h
  obtain ⟨a, act⟩ := exists_phaseAct running step
  rw [engineStep, engineAct_of_legal counts, act]
  cases a <;> exact ⟨_, rfl⟩

theorem engineTurn_completes {s : State} (h : SequenceInv s) (r : EnvReply) : ∃ t, engineTurn r s = .next t := by
  unfold engineTurn
  split
  · exact ⟨s, rfl⟩
  · next running => exact engineStep_completes h running r

theorem takeInput_ne_fault {s : State} (h : SequenceInv s) (inp : Input) (f : Fault) : takeInput inp s ≠ .fault f := by
  cases inp with
  | host r =>
    simp only [takeInput, hostTurn]
    split
    · next i _ =>
      obtain ⟨t, ht⟩ := exec_completes i s
      rw [ht]
      nofun
    · nofun
  | engine r =>
    obtain ⟨t, ht⟩ := engineTurn_completes h r
    rw [takeInput, ht]
    nofun
  | reset => nofun

/-- Settles O49: with legal counters the engine always has something to do, and each phase keeps its `E.STEP` legal. -/
theorem noReachableStepFaults : Obligations.NoReachableStepFaults := by
  unfold Obligations.NoReachableStepFaults
  refine fun s hs => ⟨fun f => ?_, fun t hst => ?_⟩
  · obtain ⟨l, d, hd⟩ := dropInput_eq s
    have taken : SequenceInv (dropInput s) := by rw [hd]; exact hs
    exact takeInput_ne_fault taken _ f
  · exact step_keeps (fun _ _ _ h => h) (fun _ _ _ h => h.after_exec) (fun _ _ _ h _ => h.after_engineStep)
      (fun _ _ => sequenceInvAtReset) hs hst

/-! ## The poll count and its bound (R33, R131) -/

/-- The phases before the first poll. -/
def beforePoll : List Phase := [.setup, .start, .cmd, .ackrel, .wait]

theorem countPoll_le {p n : Word} (h : p < n) : countPoll p ≤ n := by
  have count := countPoll_toNat p
  rw [BitVec.lt_def] at h
  rw [BitVec.le_def]
  omega

/-- Outside POLL and the phases before it POLLS need only be within the bound. -/
theorem pollInv_of_le {s : State} (past : s.eng.phase ∉ beforePoll) (polling : s.eng.phase ≠ .poll)
    (le : ∀ n, s.pollLimit = some n → s.polls ≤ n.val) : PollInv s :=
  ⟨fun before => absurd before past, fun n hn => ⟨le n hn, fun poll => absurd poll polling⟩⟩

theorem pollInv_finish {s : State} (le : ∀ n, s.pollLimit = some n → s.polls ≤ n.val) (res : Result) :
    PollInv (finish res s) :=
  pollInv_of_le (by simp [beforePoll]) (by simp) le

theorem pollInv_of_zero {s : State} (zero : s.polls = 0) (polling : s.eng.phase ≠ .poll) : PollInv s :=
  ⟨fun _ => zero, fun n _ => ⟨by rw [zero]; exact BitVec.le_def.mpr (Nat.zero_le _), fun poll => absurd poll polling⟩⟩

theorem PollInv.le {s : State} (h : PollInv s) (n : PollBound) (hn : s.pollLimit = some n) : s.polls ≤ n.val :=
  (h.2 n hn).1

/-- No phase but WAIT leads to POLL, and none leads back before it. -/
theorem Advance.phase_poll {e e' : Engine} (next : Advance e e') (polls : e.phase ≠ .poll) :
    e'.phase ≠ .poll ∧ (e'.phase ∈ beforePoll → e.phase ∈ beforePoll) := by
  cases next with
  | nextStep _ phase | nextBit _ _ phase => rw [phase]; exact ⟨polls, id⟩
  | _ => simp [beforePoll, *]

theorem PollInv.after_advance {s : State} {e : Engine} (h : PollInv s) (polls : s.eng.phase ≠ .poll)
    (next : Advance s.eng e) : PollInv { s with eng := e } := by
  obtain ⟨other, before⟩ := next.phase_poll polls
  exact ⟨fun early => h.1 (before early), fun n hn => ⟨h.le n hn, fun poll => absurd poll other⟩⟩

/-- POLL is entered with POLLS 0, below every bound. -/
theorem PollInv.after_waitStep {s : State} (h : PollInv s) (wait : s.eng.phase = .wait) : PollInv (waitStep s) := by
  have zero : s.polls = 0 := h.1 (by simp [wait])
  refine ⟨fun early => by simp at early, fun n hn => ⟨h.le n hn, fun _ => ?_⟩⟩
  rw [waitStep_polls, zero]
  exact BitVec.lt_def.mpr (Nat.pos_of_ne_zero (BitVec.toNat_ne_iff_ne.mpr n.property))

theorem PollInv.after_afterPoll {s : State} (h : PollInv s) (poll : s.eng.phase = .poll) (v : Level) :
    PollInv (afterPoll v s) := by
  have counted (n : PollBound) (hn : s.pollLimit = some n) : countPoll s.polls ≤ n.val :=
    countPoll_le ((h.2 n hn).2 poll)
  obtain heq | ⟨heq, below⟩ | heq := afterPoll_cases v s <;> rw [heq]
  · exact pollInv_of_le (by simp [beforePoll]) (by simp) counted
  · exact ⟨fun early => by simp [poll] at early, fun n hn => ⟨counted n hn, fun _ => below n hn⟩⟩
  · exact pollInv_finish counted _

theorem PollInv.after_engineStep {r : EnvReply} {s t : State} (h : PollInv s) (hst : engineStep r s = .next t) :
    PollInv t := by
  obtain ⟨wait, rfl⟩ | ⟨-, o, a, ⟨res, rfl⟩ | rfl | ⟨poll, v, rfl⟩ | ⟨polls, e, rfl, -, next⟩⟩ := engineStep_advances hst
  · exact h.after_waitStep wait
  · exact pollInv_finish (s := observe o a s) h.le res
  · rw [conclude_eq]
    apply pollInv_finish
    exact h.le
  · exact PollInv.after_afterPoll (s := observe o a s) h poll v
  · exact PollInv.after_advance (s := observe o a s) h polls next

theorem PollInv.after_exec {i : Instr} {s t : State} (h : PollInv s) (hst : exec i s = .next t) : PollInv t := by
  obtain ⟨cmd, n, -, -, heq⟩ | ⟨_, _, _, _, _, _, _, heq⟩ := exec_cases i s <;>
    (rw [heq] at hst; injection hst with hst; subst hst)
  · exact pollInv_of_zero rfl (by simp [freshEngine])
  · exact h

theorem pollInv_resetBlock (s : State) : PollInv (resetBlock s) :=
  pollInv_of_zero rfl nofun

theorem exec_pollLimit {i : Instr} {s t : State} (hst : exec i s = .next t) : t.pollLimit = s.pollLimit := by
  obtain ⟨_, _, -, -, heq⟩ | ⟨_, _, _, _, _, _, _, heq⟩ := exec_cases i s <;>
    (rw [heq] at hst; injection hst with hst; subst hst; rfl)

theorem engineStep_pollLimit {r : EnvReply} {s t : State} (hst : engineStep r s = .next t) :
    t.pollLimit = s.pollLimit := by
  obtain ⟨_, _, _, _, ⟨-, rfl⟩ | ⟨_, -, rfl⟩⟩ := engineStep_runs_or_ends hst <;> rfl

/-- Settles O52: POLL is entered with POLLS 0, and left when a poll reaches the bound. -/
theorem pollInvIsKept : Obligations.PollInvIsKept := by
  unfold Obligations.PollInvIsKept
  refine ⟨⟨pollInv_resetBlock State.reset, pollInv_resetBlock⟩, fun s t hs hst => ?_⟩
  exact step_keeps (P := fun u => PollInv u ∧ u.pollLimit = s.pollLimit) (fun _ _ _ h => h)
    (fun _ _ _ ⟨h, limit⟩ hst => ⟨h.after_exec hst, (exec_pollLimit hst).trans limit⟩)
    (fun _ _ _ ⟨h, limit⟩ _ hst => ⟨h.after_engineStep hst, (engineStep_pollLimit hst).trans limit⟩)
    (fun _ ⟨_, limit⟩ => ⟨pollInv_resetBlock _, limit⟩) ⟨hs, rfl⟩ hst

end Sys2Proof.Machine
end

section
/-! What an input does (`20_memory.md` rule R72), and host operations beside an exchange (`41_protocol.md` section 6,
`43_control.md` section 2, `60_exceptions.md` rule R224). -/

namespace Sys2Proof.Machine

/-! ## One input -/

/-- Settles O6: the request is the input taken, and stands for the instruction. -/
theorem stepRunsTheRequestedInstruction : Obligations.StepRunsTheRequestedInstruction := by
  unfold Obligations.StepRunsTheRequestedInstruction
  intro s r rest i listed decoded _
  rw [step_cons listed, takeInput, hostTurn, decoded]

/-- Settles O7: the engine's turn is the input taken. -/
theorem stepRunsTheEngine : Obligations.StepRunsTheEngine := by
  unfold Obligations.StepRunsTheEngine
  intro s r rest listed
  rw [step_cons listed, takeInput, engineTurn]
  exact ⟨fun running => if_neg running, fun idle => if_pos idle⟩

/-- Settles O60: reset is the input taken. -/
theorem resetAtAnyTime : Obligations.ResetAtAnyTime := by
  unfold Obligations.ResetAtAnyTime
  intro s rest listed
  rw [step_cons listed, takeInput_reset]
  exact ⟨_, rfl, resetBlock_sameBlock _, rfl, rfl, rfl⟩

/-! ## Every instruction -/

/-- Settles O10: an accepted EXCH and every other effect leave the model's own fields. -/
theorem everyInstructionCompletes : Obligations.EveryInstructionCompletes := by
  unfold Obligations.EveryInstructionCompletes
  intro i s
  obtain ⟨_, _, -, -, h⟩ | ⟨_, _, _, _, _, _, _, h⟩ := exec_cases i s
  · exact ⟨_, h, rfl, rfl, rfl⟩
  · exact ⟨_, h, rfl, rfl, rfl⟩

/-- Settles O22: while BUSY = 1 no EXCH is accepted, and nothing else touches the exchange. -/
theorem noInstructionDisturbsARunningExchange : Obligations.NoInstructionDisturbsARunningExchange := by
  unfold Obligations.NoInstructionDisturbsARunningExchange
  intro i s busy
  obtain ⟨_, _, -, idle, -⟩ | ⟨_, _, _, _, _, _, _, h⟩ := exec_cases i s
  · simp [idle] at busy
  · exact ⟨_, h, rfl, busy, rfl, rfl, rfl, rfl, rfl, rfl, rfl, rfl, rfl, rfl⟩

/-- Settles O20: a command is `startExchange` of its byte and count. -/
theorem commandsStartTheirExchange : Obligations.CommandsStartTheirExchange := by
  unfold Obligations.CommandsStartTheirExchange
  refine ⟨⟨rfl, rfl, rfl, rfl⟩, fun s => ⟨fun idle => ?_, fun busy => ?_⟩⟩
  · have accepted (c : Byte) (n : BitVec 2) : (.next (startExchange c n s) : Answered) = .next (acceptedExch c n s) :=
      congrArg Host.Outcome.next (startExchange_accepted idle c n)
    exact ⟨accepted 0x03 2, accepted 0x05 2, accepted 0x07 1, accepted 0x1E 0⟩
  · have discarded (c : Byte) (n : BitVec 2) : (.next (startExchange c n s) : Answered) = .next (setOvr s) :=
      congrArg Host.Outcome.next (startExchange_discarded busy c n)
    exact ⟨discarded 0x03 2, discarded 0x05 2, discarded 0x07 1, discarded 0x1E 0⟩

/-! ## Sticky bits (R224) -/

/-- An EXCH with N at most 2 leaves ILL (R120, R202). -/
theorem startExchange_ill (cmd : Byte) (n : BitVec 2) (s : State) : (startExchange cmd n s).ill = s.ill := by
  obtain ⟨-, h⟩ | ⟨-, h⟩ := startExchange_cases cmd n s <;> rw [h] <;> rfl

/-- An operation that a CTRL word selects and that sets OVR leaves ILL. -/
theorem ill_eq_of_performCtrl_sets_ovr {o : CtrlOp} {s t : State} (h : performCtrl o s = .next t)
    (ovr : s.ovr = false) (set : t.ovr = true) : t.ill = s.ill := by
  have kept (same : t.ovr = s.ovr) : t.ill = s.ill := by simp [same, ovr] at set
  cases o with
  | exchN0 cmd | exchN1 cmd | exchN2 cmd =>
    injection h with h
    exact h ▸ startExchange_ill ..
  | nop =>
    injection h with h
    subst h
    cases set
  | _ =>
    injection h with h
    exact kept (h ▸ rfl)

/-- Settles O21: only an EXCH sets OVR, and it leaves ILL; an illegal word sets ILL alone. -/
theorem oneWriteSetsAtMostOneStickyBit : Obligations.OneWriteSetsAtMostOneStickyBit := by
  unfold Obligations.OneWriteSetsAtMostOneStickyBit
  intro w s t h ovr ill
  constructor
  · rintro ⟨ovrSet, illSet⟩
    have kept : t.ill = s.ill := ill_eq_of_performCtrl_sets_ovr h ovr ovrSet
    rw [illSet, ill] at kept
    cases kept
  · intro illegal
    obtain ⟨-, -, -, set⟩ := illegalWordsSetIllOnly s
    rw [set w illegal] at h
    injection h with h
    subst h
    exact ⟨ovr, rfl⟩

end Sys2Proof.Machine
end

section
/-! The CRC functions (`40_crc.md`): bit reversal (R100), the generated table (R101), and a host's CRC of a sequence (R102,
R108). -/

namespace Sys2Proof.Machine

theorem rev8_getLsbD (b : Byte) {i : Nat} (hi : i < 8) : (rev8 b).getLsbD i = b.getLsbD (7 - i) := by
  rw [rev8, BitVec.getLsbD_reverse, BitVec.getMsbD_eq_getLsbD]
  simp [hi]

/-- Settles O25: each law bit by bit. -/
theorem bitReversal : Obligations.BitReversal := by
  unfold Obligations.BitReversal
  refine ⟨fun b i hi => rev8_getLsbD b hi, fun b => ?_, fun a b => ?_, by decide, by decide, by decide, by decide,
    by decide, by decide⟩
  · apply BitVec.eq_of_getLsbD_eq
    intro i hi
    rw [rev8_getLsbD _ hi, rev8_getLsbD _ (by omega), show 7 - (7 - i) = i by omega]
  · apply BitVec.eq_of_getLsbD_eq
    intro i hi
    simp only [BitVec.getLsbD_xor, rev8_getLsbD _ hi]

/-- Settles O26: the entry the CRC functions read is the generator's. -/
theorem crcTableIsItsGenerators : Obligations.CrcTableIsItsGenerators := by
  unfold Obligations.CrcTableIsItsGenerators
  have length : crcTable.length = 256 := by
    simp only [crcTable, List.length_append]
    rfl
  refine ⟨length, fun b => ?_⟩
  have inside : b.toNat < crcTable.length := by
    rw [length]
    exact b.isLt
  rw [← crcEntry_eq_crcGenerate, crcEntry, List.getD_eq_getElem _ _ inside, List.getElem?_eq_getElem inside]

/-- CRC_ADD of the next byte, where what came before completed. -/
def thenAdd (o : Answered) (b : Byte) : Answered :=
  match o with
  | .next t => exec (.crcAdd b) t
  | o       => o

theorem foldl_thenAdd (bs : List Byte) (s : State) :
    bs.foldl thenAdd (.next s) = .next { s with crcAcc := crcFold s.crcAcc bs } := by
  induction bs generalizing s with
  | nil => rfl
  | cons b bs ih => exact ih { s with crcAcc := crcStep s.crcAcc b }

/-- Settles O28: CRC_CLR leaves 0, from which each CRC_ADD injects its byte. -/
theorem hostCrcOfASequence : Obligations.HostCrcOfASequence := by
  unfold Obligations.HostCrcOfASequence
  exact fun bs s => foldl_thenAdd bs { s with crcAcc := 0 }

end Sys2Proof.Machine
end

section
/-! The host's units beside the engine (`10_state.md` sections 5 and 6, `43_control.md` rule R205): the engine neither sees
nor writes their registers or the sticky bits. -/

namespace Sys2Proof.Machine

/-- The registers of the CRC unit and of the converter, and the sticky bits (R26, R27, R34 to R37). -/
structure Units where
  ovr    : Bool
  ill    : Bool
  crcAcc : Byte
  temp   : BitVec 17
  rhl    : BitVec 48
  rht    : BitVec 48

def units (s : State) : Units :=
  { ovr := s.ovr, ill := s.ill, crcAcc := s.crcAcc, temp := s.temp, rhl := s.rhl, rht := s.rht }

/-- A state with other values in the units. -/
def withUnits (u : Units) (s : State) : State :=
  { s with ovr := u.ovr, ill := u.ill, crcAcc := u.crcAcc, temp := u.temp, rhl := u.rhl, rht := u.rht }

@[simp] theorem withUnits_eng (u : Units) (s : State) : (withUnits u s).eng = s.eng := rfl

/-! ## The engine does not see them -/

theorem phaseEffect_withUnits (a : Answer) (u : Units) (s : State) :
    phaseEffect a (withUnits u s) = withUnits u (phaseEffect a s) := by
  simp only [phaseEffect, withUnits_eng]
  cases s.eng.phase with
  | idle | wait => rfl
  | setup | start | cmd | ackrel | rxack | final =>
    simp only [afterSetup, afterStart, afterCmd, afterAckrel, afterRxack, afterFinal, apply_ite (withUnits u)]
    rfl
  | shiftin => cases a <;> simp only [afterShiftin, apply_ite (withUnits u)] <;> rfl
  | poll =>
    cases a with
    | ok | ioErr => rfl
    | lvl v =>
      cases v with
      | low => rfl
      | high => simp only [afterPoll, pollHigh, apply_ite (withUnits u)]; rfl

theorem lineStep_withUnits (o : LineOp) (a : Answer) (u : Units) (s : State) :
    lineStep o a (withUnits u s) = withUnits u (lineStep o a s) := by
  unfold lineStep
  split
  · rfl
  · exact phaseEffect_withUnits a u (observe o a s)

theorem engineStep_withUnits {r : EnvReply} {s t : State} (u : Units) (h : engineStep r s = .next t) :
    engineStep r (withUnits u s) = .next (withUnits u t) := by
  unfold engineStep at h ⊢
  rw [withUnits_eng]
  split at h
  · injection h with h
    subst h
    exact congrArg Host.Outcome.next (lineStep_withUnits ..)
  · injection h with h
    subst h
    rfl
  · cases h

/-- An engine step writes none of them (R26, R27, R34 to R37). -/
theorem units_engineStep {r : EnvReply} {s t : State} (h : engineStep r s = .next t) : units t = units s := by
  obtain ⟨_, _, _, _, ⟨-, rfl⟩ | ⟨_, -, rfl⟩⟩ := engineStep_runs_or_ends h <;> rfl

/-! ## Operations of the units -/

/-- The instruction does to every state what `f` does to its units, and nothing else. -/
def ActsOnUnits (i : Instr) (f : Units → Units) : Prop :=
  ∀ s, exec i s = .next (withUnits (f (units s)) s)

/-- What acts on the units alone commutes with an engine step. -/
theorem ActsOnUnits.commutes {i : Instr} {f : Units → Units} (acts : ActsOnUnits i f) {r : EnvReply} {s t u : State}
    (ht : exec i s = .next t) (hu : engineStep r s = .next u) :
    ∃ w, engineStep r t = .next w ∧ exec i u = .next w := by
  rw [acts] at ht
  injection ht with ht
  subst ht
  exact ⟨_, engineStep_withUnits _ hu, by rw [acts, units_engineStep hu]⟩

/-- Settles O34: each of these instructions acts on the units alone. -/
theorem unitsAndEngineDoNotInterfere : Obligations.UnitsAndEngineDoNotInterfere := by
  unfold Obligations.UnitsAndEngineDoNotInterfere
  intro i r s t u unit
  have commutes (f : Units → Units) (acts : ActsOnUnits i f) := acts.commutes (r := r) (s := s) (t := t) (u := u)
  obtain rfl | rfl | ⟨b, rfl⟩ | ⟨x, rfl⟩ | ⟨x, rfl⟩ | ⟨x, rfl⟩ | ⟨v, rfl⟩ := unit
  · exact commutes (fun k => { k with ovr := false, ill := false }) fun _ => rfl
  · exact commutes (fun k => { k with crcAcc := 0 }) fun _ => rfl
  · exact commutes (fun k => { k with crcAcc := crcStep k.crcAcc b }) fun _ => rfl
  · exact commutes (fun k => { k with temp := BitVec.ofInt 17 (tC100 x) }) fun _ => rfl
  · exact commutes (fun k => { k with rhl := BitVec.ofInt 48 (rlE10 x) }) fun _ => rfl
  · exact commutes (fun k => { k with rht := BitVec.ofInt 48 (rtE10 k.temp.toInt x) }) fun _ => rfl
  · exact commutes (fun k => { k with temp := v.extractLsb' 0 17 }) fun _ => rfl

/-- An EXCH with N at most 2 leaves the units' registers (R120, R202). -/
theorem startExchange_registers (cmd : Byte) (n : BitVec 2) (s : State) :
    (startExchange cmd n s).crcAcc = s.crcAcc ∧ (startExchange cmd n s).temp = s.temp ∧
    (startExchange cmd n s).rhl = s.rhl ∧ (startExchange cmd n s).rht = s.rht := by
  obtain ⟨-, h⟩ | ⟨-, h⟩ := startExchange_cases cmd n s <;> rw [h] <;> exact ⟨rfl, rfl, rfl, rfl⟩

/-- Which instructions but a CTRL write write each register (R34 to R37). -/
theorem writer_of_register {i : Instr} {s t : State} (h : exec i s = .next t) (direct : ∀ w, i ≠ .wrCtrl w) :
    (t.crcAcc ≠ s.crcAcc → i = .crcClr ∨ ∃ b, i = .crcAdd b) ∧
    (t.temp ≠ s.temp → (∃ v, i = .wrTemp v) ∨ ∃ x, i = .convT x) ∧
    (t.rhl ≠ s.rhl → ∃ x, i = .convRhl x) ∧
    (t.rht ≠ s.rht → ∃ x, i = .convRht x) := by
  cases i with
  | wrCtrl w => exact absurd rfl (direct w)
  | exchN0 | exchN1 | exchN2 | wireMeasureTemperature | wireMeasureRelativeHumidity | wireReadStatusRegister
  | wireSoftReset =>
    injection h with h
    subst h
    simp [startExchange_registers]
  | _ =>
    injection h with h
    subst h
    simp [ignoredWrite]

theorem instr_injective : Function.Injective CtrlOp.instr := by
  intro o o' h
  cases o <;> cases o' <;> cases h <;> rfl

theorem instr_ne_write (o : CtrlOp) (v : Word) : o.instr ≠ .wrCtrl v ∧ o.instr ≠ .wrTemp v := by
  cases o <;> exact ⟨nofun, nofun⟩

/-- Settles O23: a CTRL write is the operation its word selects, and an engine step leaves the units. -/
theorem onlyTheirOperationsWriteTheUnits : Obligations.OnlyTheirOperationsWriteTheUnits := by
  unfold Obligations.OnlyTheirOperationsWriteTheUnits
  constructor
  · intro i s t h
    by_cases ctrl : ∃ w, i = .wrCtrl w
    · obtain ⟨w, rfl⟩ := ctrl
      rw [exec_wrCtrl] at h
      obtain ⟨crcAcc, temp, rhl, rht⟩ := writer_of_register h fun v => (instr_ne_write _ v).1
      refine ⟨fun ne => .inr (.inr ⟨w, rfl, (crcAcc ne).imp (instr_injective ·) fun ⟨b, hb⟩ => ⟨b, instr_injective hb⟩⟩),
        fun ne => .inr (.inr ⟨w, rfl, ?_⟩), fun ne => .inr ⟨w, rfl, ?_⟩, fun ne => .inr ⟨w, rfl, ?_⟩⟩
      · obtain ⟨v, hv⟩ | ⟨x, hx⟩ := temp ne
        · exact absurd hv (instr_ne_write _ v).2
        · exact ⟨x, instr_injective hx⟩
      · exact (rhl ne).imp fun x hx => instr_injective hx
      · exact (rht ne).imp fun x hx => instr_injective hx
    · obtain ⟨crcAcc, temp, rhl, rht⟩ := writer_of_register h (not_exists.mp ctrl)
      exact ⟨fun ne => (crcAcc ne).imp_right .inl, fun ne => (temp ne).imp_right .inl, fun ne => .inl (rhl ne),
        fun ne => .inl (rht ne)⟩
  · intro r s t h
    have kept := units_engineStep h
    simp only [units, Units.mk.injEq] at kept
    obtain ⟨ovr, ill, crcAcc, temp, rhl, rht⟩ := kept
    exact ⟨crcAcc, temp, rhl, rht, ovr, ill⟩

end Sys2Proof.Machine
end

section
/-! The events of a run and its end (`41_protocol.md` sections 2 to 5, `43_control.md` rule R206): one event per step, quiet
results while BUSY, what the wait loop returns, and the bound on an exchange's steps. -/

namespace Sys2Proof.Machine

/-! ## One event per engine step (R121, R64, R66) -/

theorem lineStep_lt (o : LineOp) (a : Answer) (s : State) : (lineStep o a s).lt = s.lt ++ [.op o a] := by
  unfold lineStep
  split
  · rfl
  · rw [phaseEffect_lt, observe_lt]

theorem lineStep_ioErr_pins (o : LineOp) (s : State) : (lineStep o .ioErr s).pins = s.pins := by
  simp only [lineStep, if_true, finish_pins, observe_pins, mirror_ioErr]

/-- A line is sampled only in POLL and SHIFTIN (R128). -/
theorem phase_of_get {e : Engine} {l : Line} (act : phaseAct e = some (.line (.get l))) :
    e.phase = .poll ∨ e.phase = .shiftin := by
  obtain ⟨-, step⟩ | ⟨-, _, _, op⟩ | ⟨-, _, _, op⟩ | ⟨-, step⟩ | ⟨hp, -⟩ | ⟨hp, -⟩ | ⟨-, step⟩ | ⟨-, step⟩ :=
    phaseAct_line_cases act
  case inr.inr.inr.inr.inl => exact .inl hp
  case inr.inr.inr.inr.inr.inl => exact .inr hp
  all_goals grind

/-- Settles O45: the event is the delay, or the operation the phase names with its answer. -/
theorem oneLineOperationPerStep : Obligations.OneLineOperationPerStep := by
  unfold Obligations.OneLineOperationPerStep
  intro r s t h
  obtain ⟨counts, ⟨-, wait, rfl⟩ | ⟨o, act, -⟩⟩ := engineStep_cases h
  · exact ⟨.delay, waitStep_lt s, iff_of_true rfl wait, nofun, nofun, nofun⟩
  have waits := not_wait_of_line act
  rw [engineAct_of_legal counts] at act
  rw [engineStep_line r counts act] at h
  injection h with h
  subst h
  refine ⟨.op o (answerTo o r), lineStep_lt .., iff_of_false nofun waits, fun a ev => ?_, fun a ev => ?_, fun o' ev => ?_⟩
  · injection ev with op
    subst op
    cases (dataConfigured_of_get act).1
  · injection ev with op
    subst op
    exact phase_of_get act
  · injection ev with _ failed
    rw [failed]
    exact lineStep_ioErr_pins o s

/-! ## Quiet results while BUSY (R256) -/

/-- Everything a step can do with the input it takes (R72). -/
theorem step_cases {s t : State} (h : step s = .next t) :
    ∃ u l d, u = { s with inputs := l, drawn := d } ∧
      ((∃ i, exec i u = .next t) ∨ (∃ r, engineStep r u = .next t) ∨ t = u ∨ t = resetBlock u) := by
  obtain ⟨l, d, hd⟩ := dropInput_eq s
  refine ⟨dropInput s, l, d, hd, ?_⟩
  unfold step takeInput at h
  split at h
  · unfold hostTurn at h
    split at h
    · exact .inl ⟨_, h⟩
    · cases h
  · obtain same | ⟨-, moved⟩ := engineTurn_cases h
    · exact .inr (.inr (.inl same))
    · exact .inr (.inl ⟨_, moved⟩)
  · injection h with h
    exact .inr (.inr (.inr h.symm))

/-- Settles O53: only an accepted EXCH makes the block busy, which clears the results, and only `finish` writes them. -/
theorem resultsAreQuietWhileBusy : Obligations.ResultsAreQuietWhileBusy := by
  unfold Obligations.ResultsAreQuietWhileBusy
  intro s t _ quiet h
  obtain ⟨_, _, _, rfl, ⟨i, hst⟩ | ⟨r, hst⟩ | rfl | rfl⟩ := step_cases h
  · obtain ⟨_, _, -, -, heq⟩ | ⟨_, _, _, _, _, _, _, heq⟩ := exec_cases i { s with inputs := _, drawn := _ } <;>
      (rw [heq] at hst; injection hst with hst; subst hst)
    · exact ⟨fun _ => ⟨rfl, rfl, rfl, rfl⟩, fun _ => rfl⟩
    · exact ⟨quiet, fun _ => rfl⟩
  · obtain ⟨_, _, _, _, ⟨-, rfl⟩ | ⟨_, -, rfl⟩⟩ := engineStep_runs_or_ends hst
    · exact ⟨quiet, fun _ => rfl⟩
    · exact ⟨nofun, nofun⟩
  · exact ⟨quiet, fun _ => rfl⟩
  · exact ⟨nofun, nofun⟩

/-! ## The wait loop (R206) -/

/-- The wait returns at once, or after one engine step and a further wait. -/
theorem waitDone_cases {rs : List EnvReply} {s t : State} {w : Word} (h : waitDone rs s = some (w, t)) :
    (s.busy = false ∧ w = statusWord s ∧ t = hostRead .status s) ∨
    ∃ r rs' u, rs = r :: rs' ∧ engineTurn r (hostRead .status s) = .next u ∧ waitDone rs' u = some (w, t) := by
  have flag : (statusWord s).getLsbD 0 = s.busy := (statusWord_flags s).1
  unfold waitDone at h
  rw [flag] at h
  split at h
  · split at h
    · cases h
    · next r rs' =>
      split at h
      · next u hu => exact .inr ⟨r, rs', u, rfl, hu, h⟩
      · cases h
  · next idle =>
    injection h with h
    injection h with hw ht
    exact .inl ⟨by simpa using idle, hw.symm, ht.symm⟩

theorem BlockInv.after_engineTurn {r : EnvReply} {s t : State} (h : BlockInv s) (hst : engineTurn r s = .next t) :
    BlockInv t := by
  obtain rfl | ⟨running, step⟩ := engineTurn_cases hst
  · exact h
  · exact h.after_engineStep running step

/-- The engine clears BUSY only where it sets DONE (R140). -/
theorem engineTurn_busy_or_done {r : EnvReply} {s t : State} (h : s.busy = true ∨ s.done = true)
    (hst : engineTurn r s = .next t) : t.busy = true ∨ t.done = true := by
  obtain rfl | ⟨-, step⟩ := engineTurn_cases hst
  · exact h
  · obtain ⟨_, _, _, _, ⟨-, rfl⟩ | ⟨_, -, rfl⟩⟩ := engineStep_runs_or_ends step
    · exact h
    · exact .inr rfl

theorem waitDone_returns {rs : List EnvReply} {s t : State} {w : Word} (inv : BlockInv s)
    (h : waitDone rs s = some (w, t)) :
    t.busy = false ∧ w = statusWord t ∧ BlockInv t ∧ (s.busy = true ∨ s.done = true → t.done = true) := by
  induction rs generalizing s with
  | nil =>
    obtain ⟨idle, rfl, rfl⟩ | ⟨_, _, _, more, -⟩ := waitDone_cases h
    · exact ⟨idle, rfl, inv.congr rfl, fun ends => ends.resolve_left (by simp [idle])⟩
    · cases more
  | cons r rs ih =>
    obtain ⟨idle, rfl, rfl⟩ | ⟨_, _, u, more, hu, rest⟩ := waitDone_cases h
    · exact ⟨idle, rfl, inv.congr rfl, fun ends => ends.resolve_left (by simp [idle])⟩
    · cases more
      have read : BlockInv (hostRead .status s) := inv.congr rfl
      obtain ⟨idle, word, inv', ended⟩ := ih (read.after_engineTurn hu) rest
      exact ⟨idle, word, inv', fun ends => ended (engineTurn_busy_or_done (s := hostRead .status s) ends hu)⟩

/-- Settles O58: the word returned is the first STATUS with BUSY 0, and BUSY falls where DONE rises. -/
theorem waitDoneReturnsTheResult : Obligations.WaitDoneReturnsTheResult := by
  unfold Obligations.WaitDoneReturnsTheResult
  intro s t replies w inv h
  obtain ⟨idle, rfl, inv', ended⟩ := waitDone_returns inv h
  obtain ⟨busy, done, -⟩ := statusWord_flags t
  exact ⟨busy.trans idle, idle, rfl, inv', fun running => ⟨done.trans (ended (.inl running)), ended (.inl running)⟩⟩

end Sys2Proof.Machine
end

section
/-! How long an exchange lasts (`41_protocol.md` rules R131, R142, R257): with a poll bound a count of the steps left falls
with every engine step; without one a High line keeps the engine in POLL. -/

namespace Sys2Proof.Machine

/-! ## The steps an exchange has left (R142) -/

/-- The operations left of the present pass through the phase's table. -/
def opsLeft (e : Engine) : Nat := phaseSteps e.phase - e.step.toNat

/-- The steps after the present byte: the bytes still to follow, 29 each, and FINAL. -/
def afterByte (e : Engine) : Nat := 29 * (e.n.toNat - e.byte.toNat) + 2

/-- The steps from POLL on: the polls below the bound, the bytes and FINAL. -/
def fromPoll (bound : Nat) (s : State) : Nat := bound - s.polls.toNat + 29 * (s.eng.n.toNat + 1) + 2

/-- The most engine steps an exchange still makes under a poll bound. -/
def stepsLeft (bound : Nat) (s : State) : Nat :=
  match s.eng.phase with
  | .idle    => 0
  | .setup   => opsLeft s.eng + 34 + 1 + fromPoll bound s
  | .start   => opsLeft s.eng + 27 + 1 + fromPoll bound s
  | .cmd     => opsLeft s.eng + 3 * s.eng.bit.toNat + 3 + 1 + fromPoll bound s
  | .ackrel  => opsLeft s.eng + 1 + fromPoll bound s
  | .wait    => 1 + fromPoll bound s
  | .poll    => fromPoll bound s
  | .shiftin => opsLeft s.eng + 3 * s.eng.bit.toNat + 5 + afterByte s.eng
  | .rxack   => opsLeft s.eng + afterByte s.eng
  | .final   => opsLeft s.eng

theorem opsLeft_pos {e : Engine} (h : StepLegal e) : 0 < opsLeft e := Nat.sub_pos_of_lt h

theorem opsLeft_of_zero {e : Engine} (h : e.step = 0) : opsLeft e = phaseSteps e.phase := by
  rw [opsLeft, h]
  rfl

theorem stepsLeft_idle {bound : Nat} {s : State} (h : s.eng.phase = .idle) : stepsLeft bound s = 0 := by
  rw [stepsLeft, h]

theorem stepsLeft_pos {bound : Nat} {s : State} (h : StepLegal s.eng) (running : s.eng.phase ≠ .idle) :
    0 < stepsLeft bound s := by
  have left := opsLeft_pos h
  unfold stepsLeft fromPoll
  cases hp : s.eng.phase with
  | idle => exact absurd hp running
  | _ => simp only; omega

theorem bit_pred_toNat {b : BitVec 3} (h : b ≠ 0) : (b - 1).toNat + 1 = b.toNat := by
  revert b
  decide

theorem byte_succ_toNat {j n : BitVec 2} (h : j < n) : (j + 1).toNat = j.toNat + 1 ∧ j.toNat < n.toNat := by
  revert j n
  decide

/-- The next operation, bit, byte or phase leaves fewer steps (R123 to R135). -/
theorem Advance.stepsLeft_lt {bound : Nat} {s : State} {e : Engine} (next : Advance s.eng e) (legal : StepLegal s.eng)
    (running : s.eng.phase ≠ .idle) (waits : s.eng.phase ≠ .wait) (polls : s.eng.phase ≠ .poll)
    (n : e.n = s.eng.n) : stepsLeft bound { s with eng := e } < stepsLeft bound s := by
  have left := opsLeft_pos legal
  cases next with
  | nextStep more phase step bit byte =>
    have fewer : opsLeft e < opsLeft s.eng := by
      obtain ⟨succ, below⟩ := toNat_step_succ legal more
      rw [opsLeft, opsLeft, phase, step, succ]
      omega
    simp only [stepsLeft, fromPoll, afterByte, phase, bit, byte, n]
    cases hp : s.eng.phase with
    | idle => exact absurd hp running
    | wait => exact absurd hp waits
    | poll => exact absurd hp polls
    | _ => simp only; omega
  | nextBit clocked more phase step bit byte =>
    have pred := bit_pred_toNat more
    have whole := opsLeft_of_zero step
    obtain hp | hp := clocked <;> simp only [stepsLeft, fromPoll, afterByte, phase, hp, whole, bit, byte, n, phaseSteps]
    · omega
    · omega
  | rxack_shiftin rxack more phase step bit byte =>
    have whole := opsLeft_of_zero step
    obtain ⟨succ, below⟩ := byte_succ_toNat more
    simp only [stepsLeft, afterByte, rxack, phase, whole, bit, byte, n, succ, phaseSteps]
    simp
    omega
  | start_cmd start phase step bit =>
    have whole := opsLeft_of_zero step
    simp only [stepsLeft, fromPoll, start, phase, whole, bit, n, phaseSteps]
    simp
    omega
  | shiftin_rxack shiftin phase step byte =>
    have whole := opsLeft_of_zero step
    simp only [stepsLeft, afterByte, shiftin, phase, whole, byte, n, phaseSteps]
    omega
  | ackrel_wait ackrel phase =>
    simp only [stepsLeft, fromPoll, ackrel, phase, n]
    omega
  | setup_start before phase step | cmd_ackrel before phase step =>
    have whole := opsLeft_of_zero step
    simp only [stepsLeft, fromPoll, before, phase, whole, n, phaseSteps]
    omega
  | final before phase step =>
    have whole := opsLeft_of_zero step
    obtain hp | hp := before <;> simp only [stepsLeft, fromPoll, afterByte, hp, phase, whole, phaseSteps]
    · omega
    · omega

/-- A poll below the bound leaves fewer steps, whatever its answer (R130, R131). -/
theorem stepsLeft_afterPoll_lt {s : State} {n : PollBound} (inv : PollInv s) (limit : s.pollLimit = some n)
    (poll : s.eng.phase = .poll) (v : Level) : stepsLeft n.val.toNat (afterPoll v s) < stepsLeft n.val.toNat s := by
  have below : s.polls.toNat < n.val.toNat := (inv.2 n limit).2 poll
  obtain heq | ⟨heq, more⟩ | heq := afterPoll_cases v s <;> rw [heq]
  · simp only [stepsLeft, fromPoll, opsLeft, afterByte, startByte, poll, phaseSteps]
    simp
    omega
  · have count := countPoll_toNat s.polls
    have more := more n limit
    simp only [stepsLeft, fromPoll, poll]
    omega
  · rw [stepsLeft_idle rfl]
    simp only [stepsLeft, fromPoll, poll]
    omega

/-- Every engine step leaves fewer steps. -/
theorem stepsLeft_engineStep_lt {r : EnvReply} {s t : State} {n : PollBound} (legal : SequenceInv s) (inv : PollInv s)
    (limit : s.pollLimit = some n) (h : engineStep r s = .next t) :
    stepsLeft n.val.toNat t < stepsLeft n.val.toNat s := by
  have running := running_of_engineStep h
  have pos := stepsLeft_pos (bound := n.val.toNat) legal.2 running
  obtain ⟨wait, rfl⟩ | ⟨waits, o, a, ⟨res, rfl⟩ | rfl | ⟨poll, v, rfl⟩ | ⟨polls, e, rfl, en, next⟩⟩ :=
    engineStep_advances h
  · simp only [stepsLeft, wait, waitStep_eng]
    exact Nat.lt_add_of_pos_left Nat.one_pos
  · exact pos
  · exact pos
  · exact stepsLeft_afterPoll_lt (s := observe o a s) inv limit poll v
  · exact next.stepsLeft_lt (s := observe o a s) legal.2 running waits polls en

/-! ## Exchanges under a bound (R131, R142) -/

/-- What holds along an exchange whose polls are bounded. -/
structure BoundedRun (n : PollBound) (s : State) : Prop where
  block : BlockInv s
  sequence : SequenceInv s
  poll : PollInv s
  limit : s.pollLimit = some n
  ended : s.eng.phase = .idle → s.done = true ∧ EndResult s.result

theorem boundedRun_acceptExchange (cmd : Byte) {m : BitVec 2} (hm : m ≤ 2) {n : PollBound} {s : State}
    (limit : s.pollLimit = some n) : BoundedRun n (acceptExchange cmd m s) where
  block := blockInv_acceptExchange cmd hm s
  sequence := sequenceInv_acceptExchange cmd hm s
  poll := pollInv_of_zero rfl (by simp [freshEngine])
  limit := limit
  ended := nofun

theorem BoundedRun.after_engineStep {n : PollBound} {r : EnvReply} {s t : State} (h : BoundedRun n s)
    (hst : engineStep r s = .next t) : BoundedRun n t where
  block := h.block.after_engineStep (running_of_engineStep hst) hst
  sequence := h.sequence.after_engineStep hst
  poll := h.poll.after_engineStep hst
  limit := (engineStep_pollLimit hst).trans h.limit
  ended := by
    obtain ⟨_, _, _, _, ⟨running, rfl⟩ | ⟨_, ends, rfl⟩⟩ := engineStep_runs_or_ends hst
    · exact fun idle => absurd idle running
    · exact fun _ => ⟨rfl, ends⟩

/-- As many engine steps as are left end the exchange. -/
theorem BoundedRun.ends {n : PollBound} {rs : List EnvReply} {s : State} (h : BoundedRun n s)
    (enough : stepsLeft n.val.toNat s ≤ rs.length) :
    ∃ t, engineRun rs s = .next t ∧ BoundedRun n t ∧ t.eng.phase = .idle := by
  induction rs generalizing s with
  | nil =>
    refine ⟨s, rfl, h, not_not.mp fun running => ?_⟩
    exact (stepsLeft_pos h.sequence.2 running).not_ge enough
  | cons r rs ih =>
    by_cases idle : s.eng.phase = .idle
    · exact ⟨s, engineRun_idle _ idle, h, idle⟩
    · obtain ⟨u, hu⟩ := engineStep_completes h.sequence idle r
      have fewer := stepsLeft_engineStep_lt h.sequence h.poll h.limit hu
      rw [List.length_cons] at enough
      rw [engineRun, engineTurn, if_neg idle, hu]
      exact ih (h.after_engineStep hu) (by omega)

/-- An accepted exchange has at most 128 steps and one for each poll of the bound before it (R142). -/
theorem stepsLeft_acceptExchange_le (cmd : Byte) {m : BitVec 2} (hm : m ≤ 2) (bound : Nat) (s : State) :
    stepsLeft bound (acceptExchange cmd m s) ≤ 128 + bound := by
  have : m.toNat ≤ 2 := hm
  simp only [stepsLeft, fromPoll, opsLeft, acceptExchange_eng, acceptExchange_polls, freshEngine, phaseSteps]
  simp
  omega

/-- Settles O56: an accepted exchange has no more steps left than are made. -/
theorem boundedExchangesEnd : Obligations.BoundedExchangesEnd := by
  unfold Obligations.BoundedExchangesEnd
  intro s cmd m n replies hm limit len
  have enough : stepsLeft n.val.toNat (acceptExchange cmd m s) ≤ replies.length :=
    len ▸ stepsLeft_acceptExchange_le cmd hm n.val.toNat s
  obtain ⟨t, run, h, idle⟩ := (boundedRun_acceptExchange cmd hm limit).ends enough
  obtain ⟨done, result⟩ := h.ended idle
  have quiet : t.busy = false := Bool.eq_false_iff.mpr fun busy => h.block.busy_iff_running.mp busy idle
  exact ⟨t, run, idle, quiet, done, result⟩

/-! ## POLL without a bound (R131, R257) -/

/-- A poll count as a number, after `k` polls more (R33). -/
theorem countPoll_iterate_toNat (k : Nat) (p : Word) : (countPoll^[k] p).toNat = min (p.toNat + k) 0xFFFFFFFF := by
  induction k generalizing p with
  | zero =>
    have := p.isLt
    rw [Function.iterate_zero_apply]
    omega
  | succ k ih =>
    rw [Function.iterate_succ_apply, ih, countPoll_toNat]
    omega

/-- A poll answered High. -/
def highPoll : LineEvent := .op (.get .data) (.lvl .high)

/-- High `k` times without a bound: POLL counts each and goes on. -/
theorem highPolls_yield (k : Nat) {s : State} {pins : Pins} {j : BitVec 3} (hc : CountsLegal s.eng)
    (unbounded : s.pollLimit = none) :
    Yields (atStep .poll j pins s) (List.replicate k highPoll)
      (atStep .poll j { pins with dataIn := if k = 0 then pins.dataIn else .high }
        { s with polls := countPoll^[k] s.polls }) := by
  induction k generalizing s pins with
  | zero => exact .nil _
  | succ k ih =>
    have first := pollHigh_below (s := atStep .poll j { pins with dataIn := .high } s) fun n hn => by
      rw [show s.pollLimit = some n from hn] at unbounded
      cases unbounded
    have rest := ih (s := { s with polls := countPoll s.polls }) (pins := { pins with dataIn := .high }) hc unbounded
    rw [ite_self] at rest
    exact .line hc rfl first rest

theorem highPolls_presentable (k : Nat) :
    List.Forall₂ presents (List.replicate k highPoll) (List.replicate k (.done .high)) := by
  induction k with
  | zero => exact .nil
  | succ k ih => exact .cons rfl ih

/-- Settles O57: each High is counted, and leads to another poll. -/
theorem unboundedPollHangs : Obligations.UnboundedPollHangs := by
  unfold Obligations.UnboundedPollHangs
  intro s k hc poll unbounded
  refine ⟨countPoll^[k] s.polls, countPoll_iterate_toNat k s.polls, ?_⟩
  have yields := highPolls_yield k (pins := s.pins) (j := s.eng.step) hc unbounded
  rw [← eq_atStep poll rfl] at yields
  rw [yields.run (highPolls_presentable k), atStep, ← poll]
  rfl

/-! ## Whole exchanges (R141) -/

/-- Settles O54: the run the phases make, and what the end of FINAL publishes for each payload count. -/
theorem completeExchange : Obligations.CompleteExchange := by
  unfold Obligations.CompleteExchange
  intro s cmd k r replies hk limit hr presented
  obtain ⟨k, rfl⟩ := Nat.exists_eq_add_of_le' hk
  have polls : (countPoll^[k + 1] (0 : Word)).toNat = min (k + 1) 0xFFFFFFFF := by
    simpa using countPoll_iterate_toNat (k + 1) 0
  match r, hr with
  | [], _ =>
    have run := exchange_yields_command cmd (k + 1) s [] replies presented
    rw [conclude_of_n_zero rfl] at run
    exact ⟨_, run, rfl, rfl, rfl, rfl, rfl, rfl, rfl, rfl, rfl, rfl, rfl, rfl, rfl, rfl, rfl, rfl,
      fun _ => ⟨rfl, rfl, rfl, rfl, rfl⟩, nofun, nofun⟩
  | [r0, r1], _ =>
    have run := exchange_yields_response cmd (n := 1) k s (by decide) (by decide) limit r0 [r1] rfl [] replies presented
    rw [conclude_of_n_one rfl] at run
    exact ⟨_, run, rfl, rfl, rfl, rfl, rfl, rfl, rfl, rfl, rfl, rfl, rfl, rfl, rfl, rfl, rfl, rfl,
      nofun, fun _ _ h => by cases h; exact ⟨rfl, rfl, rfl, rfl, polls⟩, nofun⟩
  | [r0, r1, r2], _ =>
    have run := exchange_yields_response cmd (n := 2) k s (by decide) (by decide) limit r0 [r1, r2] rfl [] replies presented
    rw [conclude_of_n_two rfl] at run
    exact ⟨_, run, rfl, rfl, rfl, rfl, rfl, rfl, rfl, rfl, rfl, rfl, rfl, rfl, rfl, rfl, rfl, rfl,
      nofun, nofun, fun _ _ _ h => by cases h; exact ⟨rfl, rfl, rfl, rfl, polls⟩⟩

end Sys2Proof.Machine
end
